-- ==== Sys2Proof/Word.lean ====
section
/-! DEFINITION. The bit-vector types the spec names: bytes, 16-bit words, 12-bit addresses and 4-bit fields.
Every value is unsigned (00_scope.md R8). -/

namespace Sys2Proof

/-- One byte: a general register, a timer, a memory byte, the immediate `kk` (10_state.md R10, 30_encoding.md R61). -/
abbrev Byte := BitVec 8

/-- 16 bits: an instruction word, `pc`, `I`, a stack slot (30_encoding.md R60, 10_state.md R12, R13, R15). -/
abbrev Word := BitVec 16

/-- The 12-bit address operand `nnn` (30_encoding.md R61). -/
abbrev Addr := BitVec 12

/-- A 4-bit field of the instruction word that is not a register number: `n1`, `n` (30_encoding.md R61). -/
abbrev Nibble := BitVec 4

/-- A register number: the 4-bit fields `x`, `y`, and `target`.
Every one of its 16 values names a register (10_state.md R10). -/
abbrev RegNum := BitVec 4

/-- The number of `VF`, the flag register (10_state.md R11). -/
abbrev VF : RegNum := 15#4

end Sys2Proof
end

