-- ==== Sys2Proof/Syntax.lean ====
section
/-! DEFINITION. The instructions as syntax: one constructor per row of spec/opcode_table.json, in the table's order.
`x`, `y` are register numbers, `kk` the 8-bit immediate, `nnn` the 12-bit address, `n` the sprite height
(30_encoding.md R61 to R63). -/

namespace Sys2Proof

/-- The 34 instructions of 30_encoding.md R66. -/
inductive Instr where
  /-- `00E0`, CLS (R115). -/
  | cls
  /-- `00EE`, RET (R80). -/
  | ret
  /-- `1nnn`, JP nnn (R81). -/
  | jp (nnn : Addr)
  /-- `2nnn`, CALL nnn (R82). -/
  | call (nnn : Addr)
  /-- `3xkk`, SE Vx, kk (R83). -/
  | seImm (x : RegNum) (kk : Byte)
  /-- `4xkk`, SNE Vx, kk (R84). -/
  | sneImm (x : RegNum) (kk : Byte)
  /-- `5xy0`, SE Vx, Vy (R85). -/
  | seReg (x y : RegNum)
  /-- `9xy0`, SNE Vx, Vy (R86). -/
  | sneReg (x y : RegNum)
  /-- `6xkk`, LD Vx, kk (R90). -/
  | ldImm (x : RegNum) (kk : Byte)
  /-- `7xkk`, ADD Vx, kk (R91). -/
  | addImm (x : RegNum) (kk : Byte)
  /-- `8xy0`, LD Vx, Vy (R92). -/
  | ldReg (x y : RegNum)
  /-- `8xy1`, OR Vx, Vy (R93). -/
  | orReg (x y : RegNum)
  /-- `8xy2`, AND Vx, Vy (R94). -/
  | andReg (x y : RegNum)
  /-- `8xy3`, XOR Vx, Vy (R95). -/
  | xorReg (x y : RegNum)
  /-- `8xy4`, ADD Vx, Vy (R96). -/
  | addReg (x y : RegNum)
  /-- `8xy5`, SUB Vx, Vy (R97). -/
  | subReg (x y : RegNum)
  /-- `8xy6`, SHR Vx, Vy (R99). -/
  | shrReg (x y : RegNum)
  /-- `8xy7`, SUBN Vx, Vy (R100). -/
  | subnReg (x y : RegNum)
  /-- `8xyE`, SHL Vx, Vy (R101). -/
  | shlReg (x y : RegNum)
  /-- `Annn`, LD I, nnn (R105). -/
  | ldI (nnn : Addr)
  /-- `Bnnn`, JP V0, nnn (R87). -/
  | jpV0 (nnn : Addr)
  /-- `Cxkk`, RND Vx, kk (R104). -/
  | rnd (x : RegNum) (kk : Byte)
  /-- `Dxyn`, DRW Vx, Vy, n (R116). -/
  | drw (x y : RegNum) (n : Nibble)
  /-- `Ex9E`, SKP Vx (R120). -/
  | skp (x : RegNum)
  /-- `ExA1`, SKNP Vx (R121). -/
  | sknp (x : RegNum)
  /-- `Fx07`, LD Vx, DT (R122). -/
  | ldVxDT (x : RegNum)
  /-- `Fx15`, LD DT, Vx (R125). -/
  | ldDTVx (x : RegNum)
  /-- `Fx18`, LD ST, Vx (R126). -/
  | ldSTVx (x : RegNum)
  /-- `Fx0A`, LD Vx, K (R123). -/
  | ldVxK (x : RegNum)
  /-- `Fx1E`, ADD I, Vx (R106). -/
  | addI (x : RegNum)
  /-- `Fx29`, LD F, Vx (R107). -/
  | ldF (x : RegNum)
  /-- `Fx33`, LD B, Vx (R108). -/
  | ldB (x : RegNum)
  /-- `Fx55`, LD [I], Vx (R110). -/
  | storeRegs (x : RegNum)
  /-- `Fx65`, LD Vx, [I] (R111). -/
  | loadRegs (x : RegNum)
deriving DecidableEq, Repr

end Sys2Proof
end

