-- ==== Sys2Proof/WellFormed.lean ====
section
/-! DEFINITION. Which instruction words are well formed: the opcode table of 30_encoding.md R66 as data, and the
check that a word matches a row of it. Every TERM of `Instr` is well formed by its operand types, since a register
field is 4 bits and each of its values names a register (10_state.md R10) and `kk`, `nnn`, `n` take every value of
their widths (30_encoding.md R63): what can be ill formed is a word, and the check is about words. -/

namespace Sys2Proof

/-- One row of the opcode table: a word matches it when its bits under `mask` are `value` (30_encoding.md R66). -/
structure OpcodeRow where
  mnemonic : String
  mask     : Word
  value    : Word
deriving DecidableEq, Repr

/-- `op & mask == match` (30_encoding.md R66). -/
def OpcodeRow.selects (r : OpcodeRow) (op : Word) : Bool := op &&& r.mask == r.value

/-- Rows 1 to 8: display clear, return, jump, call and the skips. -/
def controlRows : List OpcodeRow :=
  [ ⟨"CLS", 0xFFFF#16, 0x00E0#16⟩
  , ⟨"RET", 0xFFFF#16, 0x00EE#16⟩
  , ⟨"JP_nnn", 0xF000#16, 0x1000#16⟩
  , ⟨"CALL_nnn", 0xF000#16, 0x2000#16⟩
  , ⟨"SE_Vx__kk", 0xF000#16, 0x3000#16⟩
  , ⟨"SNE_Vx__kk", 0xF000#16, 0x4000#16⟩
  , ⟨"SE_Vx__Vy", 0xF00F#16, 0x5000#16⟩
  , ⟨"SNE_Vx__Vy", 0xF00F#16, 0x9000#16⟩ ]

/-- Rows 9 to 19: register load, arithmetic, logic and shift. -/
def registerRows : List OpcodeRow :=
  [ ⟨"LD_Vx__kk", 0xF000#16, 0x6000#16⟩
  , ⟨"ADD_Vx__kk", 0xF000#16, 0x7000#16⟩
  , ⟨"LD_Vx__Vy", 0xF00F#16, 0x8000#16⟩
  , ⟨"OR_Vx__Vy", 0xF00F#16, 0x8001#16⟩
  , ⟨"AND_Vx__Vy", 0xF00F#16, 0x8002#16⟩
  , ⟨"XOR_Vx__Vy", 0xF00F#16, 0x8003#16⟩
  , ⟨"ADD_Vx__Vy", 0xF00F#16, 0x8004#16⟩
  , ⟨"SUB_Vx__Vy", 0xF00F#16, 0x8005#16⟩
  , ⟨"SHR_Vx__Vy", 0xF00F#16, 0x8006#16⟩
  , ⟨"SUBN_Vx__Vy", 0xF00F#16, 0x8007#16⟩
  , ⟨"SHL_Vx__Vy", 0xF00F#16, 0x800E#16⟩ ]

/-- Rows 20 to 23: index load, indexed jump, random byte, draw. -/
def indexRows : List OpcodeRow :=
  [ ⟨"LD_I__nnn", 0xF000#16, 0xA000#16⟩
  , ⟨"JP_V0__nnn", 0xF000#16, 0xB000#16⟩
  , ⟨"RND_Vx__kk", 0xF000#16, 0xC000#16⟩
  , ⟨"DRW_Vx__Vy__n", 0xF000#16, 0xD000#16⟩ ]

/-- Rows 24 to 34: keys, timers, index arithmetic and memory. -/
def keyTimerMemoryRows : List OpcodeRow :=
  [ ⟨"SKP_Vx", 0xF0FF#16, 0xE09E#16⟩
  , ⟨"SKNP_Vx", 0xF0FF#16, 0xE0A1#16⟩
  , ⟨"LD_Vx__DT", 0xF0FF#16, 0xF007#16⟩
  , ⟨"LD_DT__Vx", 0xF0FF#16, 0xF015#16⟩
  , ⟨"LD_ST__Vx", 0xF0FF#16, 0xF018#16⟩
  , ⟨"LD_Vx__K", 0xF0FF#16, 0xF00A#16⟩
  , ⟨"ADD_I__Vx", 0xF0FF#16, 0xF01E#16⟩
  , ⟨"LD_F__Vx", 0xF0FF#16, 0xF029#16⟩
  , ⟨"LD_B__Vx", 0xF0FF#16, 0xF033#16⟩
  , ⟨"LD__I___Vx", 0xF0FF#16, 0xF055#16⟩
  , ⟨"LD_Vx___I", 0xF0FF#16, 0xF065#16⟩ ]

/-- The opcode table, all 34 rows in the spec's order (30_encoding.md R66). -/
def opcodeTable : List OpcodeRow := controlRows ++ registerRows ++ indexRows ++ keyTimerMemoryRows

/-- The check: a word is well formed when a row of the table selects it.
Any other word is unrecognized (30_encoding.md R67, R68). -/
def wellFormedWord (op : Word) : Bool := opcodeTable.any (·.selects op)

/-- The row of spec/opcode_table.json an instruction belongs to. -/
def Instr.row : Instr → OpcodeRow
  | .cls => ⟨"CLS", 0xFFFF#16, 0x00E0#16⟩
  | .ret => ⟨"RET", 0xFFFF#16, 0x00EE#16⟩
  | .jp _ => ⟨"JP_nnn", 0xF000#16, 0x1000#16⟩
  | .call _ => ⟨"CALL_nnn", 0xF000#16, 0x2000#16⟩
  | .seImm _ _ => ⟨"SE_Vx__kk", 0xF000#16, 0x3000#16⟩
  | .sneImm _ _ => ⟨"SNE_Vx__kk", 0xF000#16, 0x4000#16⟩
  | .seReg _ _ => ⟨"SE_Vx__Vy", 0xF00F#16, 0x5000#16⟩
  | .sneReg _ _ => ⟨"SNE_Vx__Vy", 0xF00F#16, 0x9000#16⟩
  | .ldImm _ _ => ⟨"LD_Vx__kk", 0xF000#16, 0x6000#16⟩
  | .addImm _ _ => ⟨"ADD_Vx__kk", 0xF000#16, 0x7000#16⟩
  | .ldReg _ _ => ⟨"LD_Vx__Vy", 0xF00F#16, 0x8000#16⟩
  | .orReg _ _ => ⟨"OR_Vx__Vy", 0xF00F#16, 0x8001#16⟩
  | .andReg _ _ => ⟨"AND_Vx__Vy", 0xF00F#16, 0x8002#16⟩
  | .xorReg _ _ => ⟨"XOR_Vx__Vy", 0xF00F#16, 0x8003#16⟩
  | .addReg _ _ => ⟨"ADD_Vx__Vy", 0xF00F#16, 0x8004#16⟩
  | .subReg _ _ => ⟨"SUB_Vx__Vy", 0xF00F#16, 0x8005#16⟩
  | .shrReg _ _ => ⟨"SHR_Vx__Vy", 0xF00F#16, 0x8006#16⟩
  | .subnReg _ _ => ⟨"SUBN_Vx__Vy", 0xF00F#16, 0x8007#16⟩
  | .shlReg _ _ => ⟨"SHL_Vx__Vy", 0xF00F#16, 0x800E#16⟩
  | .ldI _ => ⟨"LD_I__nnn", 0xF000#16, 0xA000#16⟩
  | .jpV0 _ => ⟨"JP_V0__nnn", 0xF000#16, 0xB000#16⟩
  | .rnd _ _ => ⟨"RND_Vx__kk", 0xF000#16, 0xC000#16⟩
  | .drw _ _ _ => ⟨"DRW_Vx__Vy__n", 0xF000#16, 0xD000#16⟩
  | .skp _ => ⟨"SKP_Vx", 0xF0FF#16, 0xE09E#16⟩
  | .sknp _ => ⟨"SKNP_Vx", 0xF0FF#16, 0xE0A1#16⟩
  | .ldVxDT _ => ⟨"LD_Vx__DT", 0xF0FF#16, 0xF007#16⟩
  | .ldDTVx _ => ⟨"LD_DT__Vx", 0xF0FF#16, 0xF015#16⟩
  | .ldSTVx _ => ⟨"LD_ST__Vx", 0xF0FF#16, 0xF018#16⟩
  | .ldVxK _ => ⟨"LD_Vx__K", 0xF0FF#16, 0xF00A#16⟩
  | .addI _ => ⟨"ADD_I__Vx", 0xF0FF#16, 0xF01E#16⟩
  | .ldF _ => ⟨"LD_F__Vx", 0xF0FF#16, 0xF029#16⟩
  | .ldB _ => ⟨"LD_B__Vx", 0xF0FF#16, 0xF033#16⟩
  | .storeRegs _ => ⟨"LD__I___Vx", 0xF0FF#16, 0xF055#16⟩
  | .loadRegs _ => ⟨"LD_Vx___I", 0xF0FF#16, 0xF065#16⟩

end Sys2Proof
end

