-- ==== Sys2Proof/Decode.lean ====
section
/-! DEFINITION. Decoding, total on any bytes, and the encoder. The decoder is the source's two-level dispatch, by the
major nibble and then by a sub-key (30_encoding.md R66); it does not consult the table of WellFormed.lean. -/

namespace Sys2Proof

/-- The major opcode `n1 = op[15:12]` (30_encoding.md R61). -/
def Word.n1 (op : Word) : Nibble := op.extractLsb' 12 4
/-- The first register number `x = op[11:8]`. -/
def Word.x (op : Word) : RegNum := op.extractLsb' 8 4
/-- The second register number `y = op[7:4]`. -/
def Word.y (op : Word) : RegNum := op.extractLsb' 4 4
/-- The low nibble `n = op[3:0]`. -/
def Word.n (op : Word) : Nibble := op.extractLsb' 0 4
/-- The low byte `kk = op[7:0]`. -/
def Word.kk (op : Word) : Byte := op.extractLsb' 0 8
/-- The address operand `nnn = op[11:0]`. -/
def Word.nnn (op : Word) : Addr := op.extractLsb' 0 12

/-- The `0` group: only `00E0` and `00EE` are instructions (30_encoding.md R66, R68). -/
def decodeSystem (op : Word) : Option Instr :=
  if op.nnn = 0x0E0#12 then some .cls
  else if op.nnn = 0x0EE#12 then some .ret
  else none

/-- The `8` group, by the low nibble (30_encoding.md R66 rows 11 to 19, R68). -/
def decodeAlu (op : Word) : Option Instr :=
  match op.n.toNat with
  | 0x0 => some (.ldReg op.x op.y)
  | 0x1 => some (.orReg op.x op.y)
  | 0x2 => some (.andReg op.x op.y)
  | 0x3 => some (.xorReg op.x op.y)
  | 0x4 => some (.addReg op.x op.y)
  | 0x5 => some (.subReg op.x op.y)
  | 0x6 => some (.shrReg op.x op.y)
  | 0x7 => some (.subnReg op.x op.y)
  | 0xE => some (.shlReg op.x op.y)
  | _   => none

/-- The `E` group, by the low byte (30_encoding.md R66 rows 24 and 25, R68). -/
def decodeKey (op : Word) : Option Instr :=
  if op.kk = 0x9E#8 then some (.skp op.x)
  else if op.kk = 0xA1#8 then some (.sknp op.x)
  else none

/-- The `F` group, by the low byte (30_encoding.md R66 rows 26 to 34, R68). -/
def decodeMisc (op : Word) : Option Instr :=
  match op.kk.toNat with
  | 0x07 => some (.ldVxDT op.x)
  | 0x0A => some (.ldVxK op.x)
  | 0x15 => some (.ldDTVx op.x)
  | 0x18 => some (.ldSTVx op.x)
  | 0x1E => some (.addI op.x)
  | 0x29 => some (.ldF op.x)
  | 0x33 => some (.ldB op.x)
  | 0x55 => some (.storeRegs op.x)
  | 0x65 => some (.loadRegs op.x)
  | _    => none

/-- The instruction a word stands for, `none` when the word is unrecognized (30_encoding.md R66 to R68). -/
def decodeWord (op : Word) : Option Instr :=
  match op.n1.toNat with
  | 0x0 => decodeSystem op
  | 0x1 => some (.jp op.nnn)
  | 0x2 => some (.call op.nnn)
  | 0x3 => some (.seImm op.x op.kk)
  | 0x4 => some (.sneImm op.x op.kk)
  | 0x5 => if op.n = 0#4 then some (.seReg op.x op.y) else none
  | 0x6 => some (.ldImm op.x op.kk)
  | 0x7 => some (.addImm op.x op.kk)
  | 0x8 => decodeAlu op
  | 0x9 => if op.n = 0#4 then some (.sneReg op.x op.y) else none
  | 0xA => some (.ldI op.nnn)
  | 0xB => some (.jpV0 op.nnn)
  | 0xC => some (.rnd op.x op.kk)
  | 0xD => some (.drw op.x op.y op.n)
  | 0xE => decodeKey op
  | _   => decodeMisc op

/-- Why bytes are no instruction. -/
inductive DecodeReject where
  /-- Fewer than two bytes: every instruction is two bytes (30_encoding.md R60). -/
  | truncated
  /-- The first two bytes are the unrecognized word `op` (30_encoding.md R67). -/
  | unrecognized (op : Word)
deriving DecidableEq, Repr

/-- The word of two bytes, the byte at the lower address the more significant (20_memory.md R44). -/
def wordOfBytes (b1 b2 : Byte) : Word := b1 ++ b2

/-- Decode the instruction at the head of a list of bytes, and give the bytes after it. -/
def decode : List Byte → Except DecodeReject (Instr × List Byte)
  | b1 :: b2 :: rest =>
    match decodeWord (wordOfBytes b1 b2) with
    | some i => .ok (i, rest)
    | none => .error (.unrecognized (wordOfBytes b1 b2))
  | _ => .error .truncated

/-- The word of an instruction, from the patterns and formats of 30_encoding.md R62 and R66. -/
def encode : Instr → Word
  | .cls          => 0x00E0#16
  | .ret          => 0x00EE#16
  | .jp nnn       => 0x1#4 ++ nnn
  | .call nnn     => 0x2#4 ++ nnn
  | .seImm x kk   => 0x3#4 ++ x ++ kk
  | .sneImm x kk  => 0x4#4 ++ x ++ kk
  | .seReg x y    => 0x5#4 ++ x ++ y ++ 0x0#4
  | .sneReg x y   => 0x9#4 ++ x ++ y ++ 0x0#4
  | .ldImm x kk   => 0x6#4 ++ x ++ kk
  | .addImm x kk  => 0x7#4 ++ x ++ kk
  | .ldReg x y    => 0x8#4 ++ x ++ y ++ 0x0#4
  | .orReg x y    => 0x8#4 ++ x ++ y ++ 0x1#4
  | .andReg x y   => 0x8#4 ++ x ++ y ++ 0x2#4
  | .xorReg x y   => 0x8#4 ++ x ++ y ++ 0x3#4
  | .addReg x y   => 0x8#4 ++ x ++ y ++ 0x4#4
  | .subReg x y   => 0x8#4 ++ x ++ y ++ 0x5#4
  | .shrReg x y   => 0x8#4 ++ x ++ y ++ 0x6#4
  | .subnReg x y  => 0x8#4 ++ x ++ y ++ 0x7#4
  | .shlReg x y   => 0x8#4 ++ x ++ y ++ 0xE#4
  | .ldI nnn      => 0xA#4 ++ nnn
  | .jpV0 nnn     => 0xB#4 ++ nnn
  | .rnd x kk     => 0xC#4 ++ x ++ kk
  | .drw x y n    => 0xD#4 ++ x ++ y ++ n
  | .skp x        => 0xE#4 ++ x ++ 0x9E#8
  | .sknp x       => 0xE#4 ++ x ++ 0xA1#8
  | .ldVxDT x     => 0xF#4 ++ x ++ 0x07#8
  | .ldDTVx x     => 0xF#4 ++ x ++ 0x15#8
  | .ldSTVx x     => 0xF#4 ++ x ++ 0x18#8
  | .ldVxK x      => 0xF#4 ++ x ++ 0x0A#8
  | .addI x       => 0xF#4 ++ x ++ 0x1E#8
  | .ldF x        => 0xF#4 ++ x ++ 0x29#8
  | .ldB x        => 0xF#4 ++ x ++ 0x33#8
  | .storeRegs x  => 0xF#4 ++ x ++ 0x55#8
  | .loadRegs x   => 0xF#4 ++ x ++ 0x65#8

/-- The two bytes of an instruction as they lie in memory, the high byte first (20_memory.md R44). -/
def encodeBytes (i : Instr) : List Byte := [(encode i).extractLsb' 8 8, (encode i).extractLsb' 0 8]

/-- The bytes, as they lie in memory, of an opcode-table word: its low `nbits` bits, every bit above them 0. -/
def bytesOfTableWord (nbits w : Nat) : List Byte :=
  let op : Word := BitVec.ofNat 16 (w % 2 ^ nbits)
  [op.extractLsb' 8 8, op.extractLsb' 0 8]

/-- The instruction the decoder reads from an opcode-table word. -/
def decodeTableWord (nbits w : Nat) : Option Instr :=
  match decode (bytesOfTableWord nbits w) with
  | .ok (i, _) => some i
  | .error _ => none

end Sys2Proof
end

