-- ==== Sys2Proof/Config.lean ====
section
/-! DEFINITION. What is fixed outside the machine: the sizes of 00_scope.md R5 and the one free value, the
entropy source. -/

namespace Sys2Proof.Config

/-- FREE VALUE (log 2): the byte the entropy source gives at its `n`-th draw. It has no body: nothing is known of
any value of it (41_load_alu.md R104, "under no law"; 92_eei_decisions.md D18). -/
opaque entropy : Nat → Byte

/-- The number of memory bytes (00_scope.md R5). -/
abbrev memorySize : Nat := 4096

/-- The highest memory address, 0xFFF (20_memory.md R40). -/
abbrev lastAddr : Nat := 0xFFF

/-- The highest `pc` at which a fetch succeeds (30_encoding.md R60). -/
abbrev lastFetch : Nat := 0xFFE

/-- The entry point and load address of the program image (70_reset_and_hazards.md R161). -/
abbrev entryPoint : Nat := 0x200

/-- The exact length of a program image (70_reset_and_hazards.md R160). -/
abbrev imageSize : Nat := 3584

end Sys2Proof.Config
end

