-- ==== Sys2Proof/Machine/State.lean ====
section
/-! DEFINITION. The machine's state as plain data: every element of 10_state.md R10 to R22 under the spec's own name,
then the four fields of the model's own (logs 1, 2 and 7), and the state right after reset (R25). -/

namespace Sys2Proof.Machine

/-- The register file `V[0]` to `V[15]` (10_state.md R10). -/
abbrev Regs := Vector Byte 16

/-- Memory as a list of (address, byte) pairs in one canonical form: addresses strictly rising and below 4096, no
entry equal to what an unlisted address reads as (`Memory.wf`, `Memory.unlisted` in Machine/Ops.lean). -/
abbrev Memory := List Host.Cell

/-- The 64 by 32 display: element `py` is row `py`, and bit `px` of it the pixel at column `px`
(10_state.md R17; the storage layout is the model's, log 14). -/
abbrev Display := Vector (BitVec 64) 32

/-- The two configuration options, set by `RESET` only (10_state.md R20). -/
structure Options where
  /-- Selects the source operand of `8xy6` and `8xyE`. -/
  shiftVyNotVx : Bool
  /-- Selects whether `Fx55` and `Fx65` advance `I`. -/
  savingIncreasesRegI : Bool
deriving DecidableEq, Repr

/-- The five fatal faults (60_exceptions.md R130). Taking one is a NEXT state (R131). -/
inductive FatalFault where
  | stackOverflow
  | stackUnderflow
  | pcOutOfRange
  | addressOutOfRange
  | keyIndexOutOfRange
deriving DecidableEq, Repr

/-- The two diagnostics (60_exceptions.md R140). -/
inductive Diagnostic where
  | unrecognizedOpcode
  | lowTarget
deriving DecidableEq, Repr

/-- What the machine reports to the host. -/
inductive Report where
  /-- A fatal fault and its information value (60_exceptions.md R130, R131). -/
  | fault (kind : FatalFault) (info : Nat)
  /-- A diagnostic and its 16-bit information value (R140). -/
  | diagnostic (kind : Diagnostic) (info : Word)
  /-- The result of `READDISPLAY` (R150). -/
  | display (pixels : Display)
  /-- The result of `READSTATUS` (R151). -/
  | status (DT ST : Byte) (awaiting halted : Bool) (faultCode : BitVec 3)
deriving DecidableEq, Repr

/-- The host's six commands (60_exceptions.md R147 to R151, 70_reset_and_hazards.md R160). -/
inductive Command where
  /-- `RESET(image, shift_vy_not_vx, saving_increases_reg_i)`. -/
  | reset (image : List Byte) (shiftVyNotVx savingIncreasesRegI : Bool)
  /-- `TICK()`. -/
  | tick
  /-- `CYCLE(rnd)`. -/
  | cycle (rnd : Byte)
  /-- `SETKEYS(k)`: bit `i` of the argument is `k[i]`. -/
  | setKeys (keys : BitVec 16)
  /-- `READDISPLAY()`. -/
  | readDisplay
  /-- `READSTATUS()`. -/
  | readStatus
deriving DecidableEq, Repr

/-- The machine's state. -/
structure State where
  /-- General registers, `VF = V[15]` (R10, R11). -/
  V : Regs
  /-- Program counter (R12). -/
  pc : Word
  /-- Index register (R13). -/
  I : Word
  /-- Delay timer (R14). -/
  DT : Byte
  /-- Sound timer (R14). -/
  ST : Byte
  /-- How many return addresses are saved, 0 to 16 (R15). -/
  depth : Fin 17
  /-- The 16 call-stack slots; those from `depth` on are stale (R15). -/
  stack : Vector Word 16
  /-- The display buffer (R17). -/
  display : Display
  /-- The key flags, bit `k` is `Key(k)` (R18, R24). -/
  keys : BitVec 16
  /-- In the keypress-wait state (R19). -/
  awaiting : Bool
  /-- The register the wait will write, meaningful while `awaiting` (R19). -/
  target : RegNum
  /-- The two options (R20). -/
  opt : Options
  /-- A fatal fault has occurred (R21). -/
  halted : Bool
  /-- Its code, 0 when there is none (R21, R130). -/
  faultCode : BitVec 3
  /-- The 4096 bytes of memory (R22, R40). -/
  memory : Memory
  /-- MODEL'S OWN (log 2): the operand `rnd` of the current `CYCLE`, a free value. -/
  rnd : Byte
  /-- MODEL'S OWN (log 2): the index of the next free random byte. -/
  rndIndex : Nat
  /-- MODEL'S OWN (log 1): the host commands not yet performed, oldest first. -/
  commands : List Command
  /-- MODEL'S OWN (log 7): what has been reported to the host, oldest first. -/
  output : List Report
deriving DecidableEq, Repr

/-- The faults a step can END in: none. Every fatal fault of the spec is a next state with `halted` set
(60_exceptions.md R131, R137), and no state is stuck (93_implementation_defined.md section 1.2). Safe: no step
is cut short (log 8). -/
inductive Fault where
deriving DecidableEq, Repr

/-- Why a step is refused. -/
inductive Refusal where
  /-- Raised by an arm of `exec` whose instruction has no meaning yet; no arm is one now. Safe. -/
  | notModelled (mnemonic : String)
  /-- Raised by the command `RESET` when its image is not exactly 3584 bytes long: "RESET is defined only for
  exactly 3584 bytes" (93_implementation_defined.md row 22, 92_eei_decisions.md D27). Safe (log 9). -/
  | imageLength (length : Nat)
deriving DecidableEq, Repr

/-- The machine right after reset (10_state.md R25). The program image and the options are arguments of `RESET`
that no one has given here: zeros and `false` (DESIGN CHOICE, unsafe, log 3). Memory lists nothing. -/
def State.reset : State where
  V := Vector.replicate 16 0
  pc := 0x200
  I := 0
  DT := 0
  ST := 0
  depth := 0
  stack := Vector.replicate 16 0
  display := Vector.replicate 32 0
  keys := 0
  awaiting := false
  target := 0
  opt := ⟨false, false⟩
  halted := false
  faultCode := 0
  memory := []
  rnd := 0
  rndIndex := 0
  commands := []
  output := []

end Sys2Proof.Machine
end

