-- ==== Sys2Proof/Machine/Ops.lean ====
section
/-! DEFINITION. The named operations over memory, registers, program counter, call stack, display and the reports to
the host; delivering a fatal fault, and beside it the one way out of it, `RESET`. -/

namespace Sys2Proof.Machine

/-! ### Memory -/

/-- The default of parameter `FONT`, glyphs 0 to 7 (20_memory.md R43; PRESUMED, log 4). -/
def fontLow : List Byte :=
  [0xF0, 0x90, 0x90, 0x90, 0xF0,  0x20, 0x60, 0x20, 0x20, 0x70] ++
  [0xF0, 0x10, 0xF0, 0x80, 0xF0,  0xF0, 0x10, 0xF0, 0x10, 0xF0] ++
  [0x90, 0x90, 0xF0, 0x10, 0x10,  0xF0, 0x80, 0xF0, 0x10, 0xF0] ++
  [0xF0, 0x80, 0xF0, 0x90, 0xF0,  0xF0, 0x10, 0x20, 0x40, 0x40]

/-- The default of parameter `FONT`, glyphs 8 to F (20_memory.md R43; PRESUMED, log 4). -/
def fontHigh : List Byte :=
  [0xF0, 0x90, 0xF0, 0x90, 0xF0,  0xF0, 0x90, 0xF0, 0x10, 0xF0] ++
  [0xF0, 0x90, 0xF0, 0x90, 0x90,  0xE0, 0x90, 0xE0, 0x90, 0xE0] ++
  [0xF0, 0x80, 0x80, 0x80, 0xF0,  0xE0, 0x90, 0x90, 0x90, 0xE0] ++
  [0xF0, 0x80, 0xF0, 0x80, 0xF0,  0xF0, 0x80, 0xF0, 0x80, 0x80]

/-- The 80 font bytes (20_memory.md R42, R43). -/
def font : List Byte := fontLow ++ fontHigh

/-- Parameter `RESERVED_INIT`: the 432 bytes at 0x050 to 0x1FF after reset, by default zeros
(20_memory.md R41, 92_eei_decisions.md D6; log 5). -/
def reservedInit : List Byte := List.replicate 432 0

/-- What an address that memory does not list reads as: the font at 0x000 to 0x04F, and 0 everywhere else: the
default of `RESERVED_INIT`, and in the program region, which a `RESET` always fills, the model's choice (log 3). -/
def Memory.unlisted (a : Nat) : Byte := font.getD a 0

/-- `MemRead(a, 1)` (00_scope.md R8). An address above 0xFFF is kept away by the caller's range check. -/
def Memory.read : Memory → Nat → Byte
  | [], a => Memory.unlisted a
  | (k, b) :: m, a => if a = k then b else Memory.read m a

/-- List `(a, b)` before `m`, unless `a` unlisted reads as `b` anyway. -/
def Memory.cons (a : Nat) (b : Byte) (m : Memory) : Memory :=
  if b = Memory.unlisted a then m else (a, b) :: m

/-- `MemWrite(a, 1, b)` (00_scope.md R8), keeping the canonical form. -/
def Memory.write : Memory → Nat → Byte → Memory
  | [], a, b => Memory.cons a b []
  | (k, c) :: m, a, b =>
    if a < k then Memory.cons a b ((k, c) :: m)
    else if a = k then Memory.cons a b m
    else (k, c) :: Memory.write m a b

/-- The canonical form from address `lo` on: addresses rising, all below 4096, no entry that says nothing. -/
def Memory.wfFrom : Nat → Memory → Bool
  | _, [] => true
  | lo, (k, b) :: m =>
    decide (lo ≤ k) && decide (k < Config.memorySize) && decide (b ≠ Memory.unlisted k) && Memory.wfFrom (k + 1) m

/-- The canonical form of memory. -/
def Memory.wf (m : Memory) : Bool := Memory.wfFrom 0 m

/-- A memory that holds `bytes` from address `base` on, in canonical form, before the memory `above`. -/
def Memory.ofBytes (base : Nat) : List Byte → Memory → Memory
  | [], above => above
  | b :: bs, above => Memory.cons base b (Memory.ofBytes (base + 1) bs above)

/-- The memory `RESET` leaves (70_reset_and_hazards.md R160). -/
def Memory.boot (fontBytes reserved image : List Byte) : Memory :=
  Memory.ofBytes 0x000 fontBytes (Memory.ofBytes 0x050 reserved (Memory.ofBytes Config.entryPoint image []))

/-! ### Registers, program counter, index register -/

/-- `V[r]` (00_scope.md R8). -/
def Regs.read (V : Regs) (r : RegNum) : Byte := V[r.toNat]'(r.isLt)

/-- `V[r] <- b` (00_scope.md R8). -/
def Regs.write (V : Regs) (r : RegNum) (b : Byte) : Regs := V.set r.toNat b r.isLt

/-- `V[r]` of a state. -/
def State.reg (s : State) (r : RegNum) : Byte := s.V.read r

/-- `V[r] <- b` on a state. -/
def State.setReg (r : RegNum) (b : Byte) (s : State) : State := { s with V := s.V.write r b }

/-- `pc <- target` (00_scope.md R8). -/
def State.setPc (target : Word) (s : State) : State := { s with pc := target }

/-- `pc <- pc + 2`, the uniform advance (30_encoding.md R65). -/
def State.advance (s : State) : State := s.setPc (s.pc + 2)

/-- `pc <- pc + 4` if the condition holds, else `pc <- pc + 2` (30_encoding.md R65). -/
def State.skipIf (c : Bool) (s : State) : State := s.setPc (if c then s.pc + 4 else s.pc + 2)

/-- `I <- v` (00_scope.md R8). -/
def State.setI (v : Word) (s : State) : State := { s with I := v }

/-- `DT <- v`. -/
def State.setDT (v : Byte) (s : State) : State := { s with DT := v }

/-- `ST <- v`. -/
def State.setST (v : Byte) (s : State) : State := { s with ST := v }

/-- Enter or leave the keypress-wait state (10_state.md R19). -/
def State.setWait (awaiting : Bool) (target : RegNum) (s : State) : State :=
  { s with awaiting := awaiting, target := target }

/-- Put a new memory in place. -/
def State.setMemory (m : Memory) (s : State) : State := { s with memory := m }

/-- Put a new display buffer in place. -/
def State.setDisplay (d : Display) (s : State) : State := { s with display := d }

/-- `MemRead(a, 1)` of a state. -/
def State.byteAt (s : State) (a : Nat) : Byte := Memory.read s.memory a

/-- `Key(k)` for `k` in 0 to 15 (10_state.md R18). -/
def State.key (s : State) (k : Nat) : Bool := s.keys.getLsbD k

/-! ### Call stack -/

/-- `Push(v)` (10_state.md R16); `none` where it raises `StackOverflow`. -/
def State.push? (v : Word) (s : State) : Option State :=
  if h : s.depth.val < 16 then
    some { s with stack := s.stack.set s.depth.val v h, depth := ⟨s.depth.val + 1, by omega⟩ }
  else none

/-- `Pop()` (10_state.md R16): the popped address and the state; `none` where it raises `StackUnderflow`.
The slot is not erased. -/
def State.pop? (s : State) : Option (Word × State) :=
  if h : s.depth.val = 0 then none
  else some (s.stack[s.depth.val - 1]'(by omega), { s with depth := ⟨s.depth.val - 1, by omega⟩ })

/-! ### Display -/

/-- `Disp(px, py)` (10_state.md R17). -/
def Display.pixel (d : Display) (px : Fin 64) (py : Fin 32) : Bool := d[py.val].getLsbD px.val

/-- The display with every pixel 0. -/
def Display.blank : Display := Vector.replicate 32 0

/-- `Disp(px, py) <- Disp(px, py) ^ 1`. -/
def Display.toggle (d : Display) (px : Fin 64) (py : Fin 32) : Display :=
  d.set py.val (d[py.val] ^^^ BitVec.twoPow 64 px.val)

/-- `Disp(px, py)` of a state. -/
def State.pixel (s : State) (px : Fin 64) (py : Fin 32) : Bool := Display.pixel s.display px py

/-- A draw in progress: the display so far, and whether a set pixel has been unset (43_display.md R116). -/
structure Drawing where
  screen : Display
  collision : Bool
deriving DecidableEq, Repr

/-- One set bit of the sprite: note the collision, toggle the pixel (R116). -/
def Drawing.dot (px : Fin 64) (py : Fin 32) (c : Drawing) : Drawing :=
  { screen := Display.toggle c.screen px py, collision := c.collision || Display.pixel c.screen px py }

/-- The first `cols` columns of the sprite row `b` with its column 0 at (`cx`, `py`): bit `7 - col` of the byte is
column `col`, and columns wrap modulo 64 (R116). -/
def Drawing.row (b : Byte) (cx : Nat) (py : Fin 32) : Nat → Drawing → Drawing
  | 0, c => c
  | col + 1, c =>
    if b.getLsbD (7 - col) then (Drawing.row b cx py col c).dot (Fin.ofNat 64 (cx + col)) py
    else Drawing.row b cx py col c

/-- The first `n` rows of the sprite at address `base`, its corner at (`cx`, `cy`): rows wrap modulo 32 (R116). -/
def Drawing.rows (m : Memory) (base cx cy : Nat) : Nat → Drawing → Drawing
  | 0, c => c
  | row + 1, c =>
    Drawing.row (Memory.read m (base + row)) cx (Fin.ofNat 32 (cy + row)) 8 (Drawing.rows m base cx cy row c)

/-- The whole draw of `Dxyn`: `n` rows from `I`, the corner at (`V[x]`, `V[y]`), no collision at first (R116). -/
def State.drawSprite (x y : RegNum) (n : Nat) (s : State) : Drawing :=
  Drawing.rows s.memory s.I.toNat (s.reg x).toNat (s.reg y).toNat n ⟨s.display, false⟩

/-! ### Blocks of registers and memory -/

/-- Write `V[0]` to `V[count - 1]` to memory from `base` on, ascending (42_index_memory.md R110). -/
def Memory.storeRegs (V : Regs) (base : Nat) : Nat → Memory → Memory
  | 0, m => m
  | k + 1, m => Memory.write (Memory.storeRegs V base k m) (base + k) (V.read (BitVec.ofNat 4 k))

/-- Load `V[0]` to `V[count - 1]` from memory from `base` on, ascending (42_index_memory.md R111). -/
def Regs.loadFrom (m : Memory) (base : Nat) : Nat → Regs → Regs
  | 0, V => V
  | k + 1, V => Regs.write (Regs.loadFrom m base k V) (BitVec.ofNat 4 k) (Memory.read m (base + k))

/-- Write the three decimal digits of `v`, hundreds at `base` (42_index_memory.md R108; log 18). -/
def Memory.storeDigits (v : Byte) (base : Nat) (m : Memory) : Memory :=
  Memory.write
    (Memory.write (Memory.write m base (BitVec.ofNat 8 (v.toNat / 100))) (base + 1) (BitVec.ofNat 8 (v.toNat / 10 % 10)))
    (base + 2) (BitVec.ofNat 8 (v.toNat % 10))

/-! ### Reports, diagnostics, fatal faults -/

/-- Report to the host (log 7). -/
def State.report (r : Report) (s : State) : State := { s with output := s.output ++ [r] }

/-- `diag d(info)`: report it and go on (60_exceptions.md R140). -/
def State.diag (d : Diagnostic) (info : Word) (s : State) : State := s.report (.diagnostic d info)

/-- The code of a fatal fault (60_exceptions.md R130). -/
def FatalFault.code : FatalFault → BitVec 3
  | .stackOverflow      => 1
  | .stackUnderflow     => 2
  | .pcOutOfRange       => 3
  | .addressOutOfRange  => 4
  | .keyIndexOutOfRange => 5

/-- The code of a diagnostic (60_exceptions.md R140). -/
def Diagnostic.code : Diagnostic → Nat
  | .unrecognizedOpcode => 1
  | .lowTarget          => 2

/-- TAKING A FATAL FAULT: `raise f(info)` (60_exceptions.md R131). `halted` is set, `fault_code` latched, the fault
and its information reported; no other state element changes. -/
def State.raise (f : FatalFault) (info : Nat) (s : State) : State :=
  { s with halted := true, faultCode := f.code, output := s.output ++ [.fault f info] }

/-- THE ONE WAY BACK: `RESET` (70_reset_and_hazards.md R160, 60_exceptions.md R138). Every state element takes the
value of 10_state.md R25; the model's own fields are kept (logs 1, 2 and 7). -/
def State.construct (fontBytes reserved image : List Byte) (o1 o2 : Bool) (s : State) : State :=
  { s with
    V := Vector.replicate 16 0
    pc := 0x200
    I := 0
    DT := 0
    ST := 0
    depth := 0
    stack := Vector.replicate 16 0
    display := Display.blank
    keys := 0
    awaiting := false
    target := 0
    opt := ⟨o1, o2⟩
    halted := false
    faultCode := 0
    memory := Memory.boot fontBytes reserved image }

/-! ### Fetch -/

/-- The word at `pc`: the byte at `pc` above the byte at `pc + 1` (30_encoding.md R60, 20_memory.md R44). -/
def State.fetchWord (s : State) : Word := wordOfBytes (s.byteAt s.pc.toNat) (s.byteAt (s.pc.toNat + 1))

end Sys2Proof.Machine
end

