-- ==== Sys2Proof/Machine/Operands.lean ====
section
/-! DEFINITION. The operand forms that need a check or a choice: `I`-relative memory blocks, key numbers, the shift
operand, the low-target diagnostic, and which instructions take a random byte. -/

namespace Sys2Proof.Machine

/-- What every meaning answers with. -/
abbrev Result := Host.Outcome State Fault Refusal

/-- The highest effective address of an access to `count` bytes from `I` on, a natural number that does not wrap
(42_index_memory.md R109). -/
def State.lastAccess (s : State) (count : Nat) : Nat := s.I.toNat + (count - 1)

/-- Some effective address of the access is above 0xFFF (20_memory.md R47); an access to no byte has none. -/
def State.accessFaults (s : State) (count : Nat) : Bool :=
  decide (count ≠ 0) && decide (Config.lastAddr < s.lastAccess count)

/-- An instruction that accesses `count` bytes from `I` on: `AddressOutOfRange` with the highest effective address,
before any write (20_memory.md R47, 60_exceptions.md R135), else its effect. -/
def State.accessing (count : Nat) (effect : State → State) (s : State) : Result :=
  if s.accessFaults count then .next (s.raise .addressOutOfRange (s.lastAccess count)) else .next (effect s)

/-- An instruction that reads the key flag `V[x]`: `KeyIndexOutOfRange` above 15 (44_keys_timers.md R120, R121,
60_exceptions.md R136), else its effect, given the flag. -/
def State.withKey (x : RegNum) (effect : Bool → State → State) (s : State) : Result :=
  if 15 < (s.reg x).toNat then .next (s.raise .keyIndexOutOfRange (s.reg x).toNat)
  else .next (effect (s.key (s.reg x).toNat) s)

/-- The operand of the two shifts: `V[y]` when `opt.shift_vy_not_vx`, else `V[x]` (41_load_alu.md R99, R101). -/
def State.shiftOperand (s : State) (x y : RegNum) : Byte := if s.opt.shiftVyNotVx then s.reg y else s.reg x

/-- `if nnn < 0x200: diag LowTarget(nnn)` (60_exceptions.md R142). -/
def State.warnLowTarget (nnn : Addr) (s : State) : State :=
  if nnn.toNat < 0x200 then s.diag .lowTarget (nnn.zeroExtend 16) else s

/-- After the copy of `Fx55` and `Fx65`: `I <- I + x + 1` when `opt.saving_increases_reg_i`
(42_index_memory.md R110, R111). -/
def State.saveAdvance (x : RegNum) (s : State) : State :=
  s.setI (if s.opt.savingIncreasesRegI then s.I + BitVec.ofNat 16 (x.toNat + 1) else s.I)

/-- Does the instruction consume the random operand of its `CYCLE`? Only `Cxkk` does (41_load_alu.md R104). -/
def drawsRandom : Instr → Bool
  | .rnd _ _ => true
  | _ => false

end Sys2Proof.Machine
end

