-- ==== Sys2Proof/Machine/Flags.lean ====
section
/-! DEFINITION. Every flag computation: the 8-bit results with the bit that goes to `VF`
(41_load_alu.md R96 to R103). -/

namespace Sys2Proof.Machine

/-- A 1-bit flag as the byte `VF` receives, 0x00 or 0x01 (41_load_alu.md R98). -/
def flagByte (f : Bool) : Byte := if f then 1 else 0

/-- `AddWithCarry(a, b)`: the sum modulo 256 and the carry out (41_load_alu.md R102). -/
def addWithCarry (a b : Byte) : Byte × Bool := (a + b, decide (256 ≤ a.toNat + b.toNat))

/-- `SubWithBorrow(a, b)`: the difference modulo 256 and the borrow (41_load_alu.md R103). -/
def subWithBorrow (a b : Byte) : Byte × Bool := (a - b, decide (a.toNat < b.toNat))

/-- Shift right by one: a zero enters at bit 7, bit 0 goes out (41_load_alu.md R99). -/
def shiftRightOut (v : Byte) : Byte × Bool := (v >>> 1, v.getLsbD 0)

/-- Shift left by one: a zero enters at bit 0, bit 7 goes out (41_load_alu.md R101). -/
def shiftLeftOut (v : Byte) : Byte × Bool := (v <<< 1, v.getLsbD 7)

/-- Write an 8-bit result to `V[x]`, then the flag to `VF`: the flag is written last (41_load_alu.md R98; log 13). -/
def State.setRegFlag (x : RegNum) (result : Byte) (flag : Bool) (s : State) : State :=
  (s.setReg x result).setReg VF (flagByte flag)

end Sys2Proof.Machine
end

