-- ==== Sys2Proof/Machine/ControlFlow.lean ====
section
/-! DEFINITION. The meanings of the control-flow instructions (40_control_flow.md R80 to R87). -/

namespace Sys2Proof.Machine

/-- `00EE`, RET (R80). -/
def execRet (s : State) : Result :=
  match s.pop? with
  | none => .next (s.raise .stackUnderflow s.pc.toNat)
  | some (target, t) => .next (t.setPc target)

/-- `1nnn`, JP nnn (R81). -/
def execJp (nnn : Addr) (s : State) : Result := .next ((s.warnLowTarget nnn).setPc (nnn.zeroExtend 16))

/-- `2nnn`, CALL nnn (R82). -/
def execCall (nnn : Addr) (s : State) : Result :=
  match s.push? (s.pc + 2) with
  | none => .next (s.raise .stackOverflow s.pc.toNat)
  | some t => .next ((t.warnLowTarget nnn).setPc (nnn.zeroExtend 16))

/-- `3xkk`, SE Vx, kk (R83). -/
def execSeImm (x : RegNum) (kk : Byte) (s : State) : Result := .next (s.skipIf (decide (s.reg x = kk)))

/-- `4xkk`, SNE Vx, kk (R84). -/
def execSneImm (x : RegNum) (kk : Byte) (s : State) : Result := .next (s.skipIf (decide (s.reg x ≠ kk)))

/-- `5xy0`, SE Vx, Vy (R85). -/
def execSeReg (x y : RegNum) (s : State) : Result := .next (s.skipIf (decide (s.reg x = s.reg y)))

/-- `9xy0`, SNE Vx, Vy (R86). -/
def execSneReg (x y : RegNum) (s : State) : Result := .next (s.skipIf (decide (s.reg x ≠ s.reg y)))

/-- `Bnnn`, JP V0, nnn: the offset register is always `V0`, and the sum is not reduced modulo 4096 (R87). -/
def execJpV0 (nnn : Addr) (s : State) : Result :=
  .next (s.setPc (nnn.zeroExtend 16 + (s.reg 0).zeroExtend 16))

end Sys2Proof.Machine
end

