-- ==== Sys2Proof/Machine/IndexMemory.lean ====
section
/-! DEFINITION. The meanings of the index-register and memory instructions (42_index_memory.md R105 to R111). -/

namespace Sys2Proof.Machine

/-- `Annn`, LD I, nnn (R105). -/
def execLdI (nnn : Addr) (s : State) : Result := .next (s.setI (nnn.zeroExtend 16)).advance

/-- `Fx1E`, ADD I, Vx: modulo 65536, `VF` is not written (R106). -/
def execAddI (x : RegNum) (s : State) : Result := .next (s.setI (s.I + (s.reg x).zeroExtend 16)).advance

/-- `Fx29`, LD F, Vx: the glyph of the low nibble of `V[x]` (R107). -/
def execLdF (x : RegNum) (s : State) : Result :=
  .next (s.setI (BitVec.ofNat 16 ((s.reg x &&& 0x0F).toNat * 5))).advance

/-- `Fx33`, LD B, Vx: three decimal digits at `I`, `I + 1`, `I + 2` (R108). -/
def execLdB (x : RegNum) (s : State) : Result :=
  s.accessing 3 fun s => (s.setMemory (Memory.storeDigits (s.reg x) s.I.toNat s.memory)).advance

/-- `Fx55`, LD [I], Vx: `V[0]` to `V[x]` to memory, then the optional advance of `I` (R110). -/
def execStoreRegs (x : RegNum) (s : State) : Result :=
  s.accessing (x.toNat + 1) fun s =>
    ((s.setMemory (Memory.storeRegs s.V s.I.toNat (x.toNat + 1) s.memory)).saveAdvance x).advance

/-- Replace the whole register file. -/
def State.setRegs (V : Regs) (s : State) : State := { s with V := V }

/-- `Fx65`, LD Vx, [I]: `V[0]` to `V[x]` from memory, then the optional advance of `I` (R111). -/
def execLoadRegs (x : RegNum) (s : State) : Result :=
  s.accessing (x.toNat + 1) fun s =>
    ((s.setRegs (Regs.loadFrom s.memory s.I.toNat (x.toNat + 1) s.V)).saveAdvance x).advance

end Sys2Proof.Machine
end

