-- ==== Sys2Proof/Machine/KeysTimers.lean ====
section
/-! DEFINITION. The meanings of the key and timer instructions (44_keys_timers.md R120 to R126) and the wait-state
cycle (R124). -/

namespace Sys2Proof.Machine

/-- `Ex9E`, SKP Vx (R120). -/
def execSkp (x : RegNum) (s : State) : Result := s.withKey x fun down s => s.skipIf down

/-- `ExA1`, SKNP Vx (R121). -/
def execSknp (x : RegNum) (s : State) : Result := s.withKey x fun down s => s.skipIf (!down)

/-- `Fx07`, LD Vx, DT (R122; log 17). -/
def execLdVxDT (x : RegNum) (s : State) : Result := .next (s.setReg x s.DT).advance

/-- `Fx15`, LD DT, Vx (R125; log 17). -/
def execLdDTVx (x : RegNum) (s : State) : Result := .next (s.setDT (s.reg x)).advance

/-- `Fx18`, LD ST, Vx (R126; log 17). -/
def execLdSTVx (x : RegNum) (s : State) : Result := .next (s.setST (s.reg x)).advance

/-- `Fx0A`, LD Vx, K: enter the wait state and advance; the key flags are not looked at (R123). -/
def execLdVxK (x : RegNum) (s : State) : Result := .next (s.setWait true x).advance

/-- The lowest-numbered key that is down (R124). -/
def firstKey (keys : BitVec 16) : Option Nat := (List.range 16).find? fun k => keys.getLsbD k

/-- `WaitCycle()`: no fetch, no `pc` change; the lowest key down goes to `V[target]` and ends the wait (R124). -/
def State.waitCycle (s : State) : State :=
  match firstKey s.keys with
  | some k => (s.setReg s.target (BitVec.ofNat 8 k)).setWait false s.target
  | none => s

end Sys2Proof.Machine
end

