-- ==== Sys2Proof/Machine/LoadAlu.lean ====
section
/-! DEFINITION. The meanings of the register load, arithmetic, logic, shift and random instructions
(41_load_alu.md R90 to R104). -/

namespace Sys2Proof.Machine

/-- The shared shape of an instruction that writes one register, no flag, and advances. -/
def writeReg (x : RegNum) (result : Byte) (s : State) : Result := .next (s.setReg x result).advance

/-- The shared shape of the five flag-producing instructions (R98). -/
def writeRegFlag (x : RegNum) (result : Byte) (flag : Bool) (s : State) : Result :=
  .next (s.setRegFlag x result flag).advance

/-- `6xkk`, LD Vx, kk (R90). -/
def execLdImm (x : RegNum) (kk : Byte) (s : State) : Result := writeReg x kk s

/-- `7xkk`, ADD Vx, kk: only the sum of `AddWithCarry`, no flag effect (R91, R102). -/
def execAddImm (x : RegNum) (kk : Byte) (s : State) : Result := writeReg x (addWithCarry (s.reg x) kk).1 s

/-- `8xy0`, LD Vx, Vy (R92). -/
def execLdReg (x y : RegNum) (s : State) : Result := writeReg x (s.reg y) s

/-- `8xy1`, OR Vx, Vy: `VF` is left alone (R93). -/
def execOrReg (x y : RegNum) (s : State) : Result := writeReg x (s.reg x ||| s.reg y) s

/-- `8xy2`, AND Vx, Vy: `VF` is left alone (R94). -/
def execAndReg (x y : RegNum) (s : State) : Result := writeReg x (s.reg x &&& s.reg y) s

/-- `8xy3`, XOR Vx, Vy: `VF` is left alone (R95). -/
def execXorReg (x y : RegNum) (s : State) : Result := writeReg x (s.reg x ^^^ s.reg y) s

/-- `8xy4`, ADD Vx, Vy: `VF` is the carry (R96). -/
def execAddReg (x y : RegNum) (s : State) : Result :=
  writeRegFlag x (addWithCarry (s.reg x) (s.reg y)).1 (addWithCarry (s.reg x) (s.reg y)).2 s

/-- `8xy5`, SUB Vx, Vy: `VF` is 1 when there is NO borrow (R97). -/
def execSubReg (x y : RegNum) (s : State) : Result :=
  writeRegFlag x (subWithBorrow (s.reg x) (s.reg y)).1 (!(subWithBorrow (s.reg x) (s.reg y)).2) s

/-- `8xy6`, SHR Vx, Vy: `VF` is bit 0 of the operand (R99). -/
def execShrReg (x y : RegNum) (s : State) : Result :=
  writeRegFlag x (shiftRightOut (s.shiftOperand x y)).1 (shiftRightOut (s.shiftOperand x y)).2 s

/-- `8xy7`, SUBN Vx, Vy: `V[y] - V[x]`, `VF` is 1 when there is NO borrow (R100). -/
def execSubnReg (x y : RegNum) (s : State) : Result :=
  writeRegFlag x (subWithBorrow (s.reg y) (s.reg x)).1 (!(subWithBorrow (s.reg y) (s.reg x)).2) s

/-- `8xyE`, SHL Vx, Vy: `VF` is bit 7 of the operand (R101). -/
def execShlReg (x y : RegNum) (s : State) : Result :=
  writeRegFlag x (shiftLeftOut (s.shiftOperand x y)).1 (shiftLeftOut (s.shiftOperand x y)).2 s

/-- `Cxkk`, RND Vx, kk: `rnd` is the operand of this `CYCLE`, a free value (R104; log 2). -/
def execRnd (x : RegNum) (kk : Byte) (s : State) : Result := writeReg x (s.rnd &&& kk) s

end Sys2Proof.Machine
end

