-- ==== Sys2Proof/Machine/Screen.lean ====
section
/-! DEFINITION. The meanings of the display instructions (43_display.md R115 to R117). -/

namespace Sys2Proof.Machine

/-- `00E0`, CLS (R115). -/
def execCls (s : State) : Result := .next (s.setDisplay Display.blank).advance

/-- `Dxyn`, DRW Vx, Vy, n: the sprite XORed onto the display, then `VF` the collision flag, written also when nothing
is drawn; `n = 0` reads no memory and cannot fault (R116; log 15). -/
def execDrw (x y : RegNum) (n : Nibble) (s : State) : Result :=
  s.accessing n.toNat fun s =>
    ((s.setDisplay (s.drawSprite x y n.toNat).screen).setReg VF
      (flagByte (s.drawSprite x y n.toNat).collision)).advance

end Sys2Proof.Machine
end

