-- ==== Sys2Proof/Machine/Cycle.lean ====
section
/-! DEFINITION. The host's commands: `CYCLE` (30_encoding.md R64), `TICK`, `SETKEYS`, `READDISPLAY`, `READSTATUS`
(60_exceptions.md R147 to R151), `RESET` (70_reset_and_hazards.md R160), and which of them a step performs. -/

namespace Sys2Proof.Machine

/-- The fallback arm: a diagnostic and `pc + 2`, nothing else (30_encoding.md R67). -/
def State.unrecognized (op : Word) (s : State) : State := (s.diag .unrecognizedOpcode op).advance

/-- `Execute(op, rnd)`: exactly one arm (30_encoding.md R64, R66). `supply` puts the random operand in place; it acts
only for an instruction that consumes it (41_load_alu.md R104). -/
def execute (supply : State → State) (op : Word) (s : State) : Result :=
  match decodeWord op with
  | some i => exec i (if drawsRandom i then supply s else s)
  | none => .next (s.unrecognized op)

/-- One `CYCLE` does exactly one of four things, chosen in this order: nothing when halted, the wait-state cycle, the
fetch fault, one instruction (30_encoding.md R60, R64; 60_exceptions.md R134, R137, R139). -/
def cycle (supply : State → State) (s : State) : Result :=
  if s.halted then .next s
  else if s.awaiting then .next s.waitCycle
  else if Config.lastFetch < s.pc.toNat then .next (s.raise .pcOutOfRange s.pc.toNat)
  else execute supply s.fetchWord s

/-- The random operand is the one the host gave. -/
def State.setRnd (r : Byte) (s : State) : State := { s with rnd := r }

/-- The random operand is the next free byte of the entropy source (log 2). -/
def State.drawRnd (s : State) : State := { s with rnd := Config.entropy s.rndIndex, rndIndex := s.rndIndex + 1 }

/-- `TICK`: each timer down by one, never below 0, in every state (60_exceptions.md R147). -/
def State.tick (s : State) : State :=
  { s with DT := if s.DT = 0 then 0 else s.DT - 1, ST := if s.ST = 0 then 0 else s.ST - 1 }

/-- `SETKEYS(k)` (60_exceptions.md R149). -/
def State.setKeys (k : BitVec 16) (s : State) : State := { s with keys := k }

/-- `READDISPLAY()` (60_exceptions.md R150). -/
def State.readDisplay (s : State) : State := s.report (.display s.display)

/-- `READSTATUS()` (60_exceptions.md R151). -/
def State.readStatus (s : State) : State :=
  s.report (.status s.DT s.ST s.awaiting s.halted s.faultCode)

/-- Perform one command of the host (60_exceptions.md R152: atomic, serialised). -/
def perform (c : Command) (s : State) : Result :=
  match c with
  | .reset image o1 o2 =>
    if image.length = Config.imageSize then .next (s.construct font reservedInit image o1 o2)
    else .refused (.imageLength image.length)
  | .tick => .next s.tick
  | .cycle r => cycle (State.setRnd r) s
  | .setKeys k => .next (s.setKeys k)
  | .readDisplay => .next s.readDisplay
  | .readStatus => .next s.readStatus

/-- The host issues a command: it waits behind those already issued (R152). -/
def State.issue (c : Command) (s : State) : State := { s with commands := s.commands ++ [c] }

/-- `TICK` and `CYCLE` requested at the same moment: `TICK` first (R152, 92_eei_decisions.md D17). -/
def State.issueTickAndCycle (r : Byte) (s : State) : State := (s.issue .tick).issue (.cycle r)

/-- The host's conventional commands for one frame (R152): the machine does not depend on this schedule. -/
def frameCommands (keys : BitVec 16) (randomBytes : List Byte) : List Command :=
  [.setKeys keys, .tick] ++ randomBytes.map .cycle ++ [.readDisplay]

/-- What a step does: the oldest command the host has issued, and where none is waiting a `CYCLE` whose random operand
is free (log 1). -/
def performNext (s : State) : Result :=
  match s.commands with
  | [] => cycle State.drawRnd s
  | c :: rest => perform c { s with commands := rest }

/-- The state whose next step fetches and runs the word `op`: nothing pending, not halted, not waiting, `pc` in range,
and the two bytes of `op` at `pc` (log 10). -/
def State.withWord (op : Word) (s : State) : State :=
  let pc : Word := if Config.lastFetch < s.pc.toNat then BitVec.ofNat 16 Config.entryPoint else s.pc
  { s with
    pc := pc
    memory := Memory.write (Memory.write s.memory pc.toNat (op.extractLsb' 8 8)) (pc.toNat + 1) (op.extractLsb' 0 8)
    awaiting := false
    halted := false
    faultCode := 0
    commands := [] }

end Sys2Proof.Machine
end

