-- ==== Sys2Proof/Machine/Step.lean ====
section
/-! DEFINITION. One step of the machine, and the state in which it runs a given word next. -/

namespace Sys2Proof.Machine

/-- One step: one command of the host, by default a `CYCLE` (log 1). -/
def step (s : State) : Host.Outcome State Fault Refusal := performNext s

/-- `s` with the low `nbits` bits of `w` stored as the instruction the next step fetches and runs. -/
def State.withFetchWord (s : State) (nbits w : Nat) : State := State.withWord (BitVec.ofNat 16 (w % 2 ^ nbits)) s

end Sys2Proof.Machine
end

