-- ==== Sys2Proof/Safety.lean ====
section
/-! DEFINITION. What counts as a safe state, in the terms the statements use. -/

namespace Sys2Proof.Machine

/-- The invariant of 10_state.md R26, with the canonical form of memory: `pc` at most 0x10FE, every saved return
address at most 0x1000, `fault_code` legal and 0 exactly when not halted. (`depth`, `target`, the registers and the
pixels are in their ranges by type.) -/
structure State.Inv (s : State) : Prop where
  pc_le : s.pc.toNat ≤ 0x10FE
  saved_le : ∀ k : Fin 16, k.val < s.depth.val → (s.stack[k.val]).toNat ≤ 0x1000
  faultCode_legal : s.faultCode.toNat ≤ 5
  faultCode_zero : s.faultCode = 0 ↔ s.halted = false
  memory_wf : Memory.wf s.memory = true

/-- The next step is a `CYCLE`: the host's, or the free one when the host has asked for nothing (log 1); the commands
`rest` wait after it. -/
def State.CycleNext (s : State) (rest : List Command) : Prop :=
  (s.commands = [] ∧ rest = []) ∨ ∃ r, s.commands = .cycle r :: rest

/-- That `CYCLE` will fetch: not halted, not waiting, `pc` in range (30_encoding.md R64). -/
def State.Fetching (s : State) (rest : List Command) : Prop :=
  s.CycleNext rest ∧ s.halted = false ∧ s.awaiting = false ∧ s.pc.toNat ≤ Config.lastFetch

/-- The step of `s` is a `CYCLE` that runs the word `op` as the decoder reads it: the instruction's `exec`, for `Cxkk`
with some byte as its random operand (log 2), or the no-operation of an unrecognized word (30_encoding.md R64, R67). -/
def State.RunsWord (s : State) (rest : List Command) (op : Word) : Prop :=
  (∀ i, decodeWord op = some i → (∀ x kk, i ≠ .rnd x kk) → step s = exec i { s with commands := rest }) ∧
  (∀ x kk, decodeWord op = some (.rnd x kk) →
    ∃ b n, step s = exec (.rnd x kk) { s with commands := rest, rnd := b, rndIndex := n }) ∧
  (decodeWord op = none → step s = .next { s with
    pc := s.pc + 2, output := s.output ++ [.diagnostic .unrecognizedOpcode op], commands := rest })

/-- Fetches find the bytes that `byte` gives: the `CYCLE` that comes directly after `t` runs the word they make at `pc`,
and so does every fetching `CYCLE` of a state `u` with the memory of `t` (20_memory.md R52). -/
def State.FetchesFind (t : State) (byte : Nat → Byte) : Prop :=
  (∀ rest, t.CycleNext rest → t.pc.toNat ≤ Config.lastFetch →
    t.RunsWord rest (wordOfBytes (byte t.pc.toNat) (byte (t.pc.toNat + 1)))) ∧
  (∀ (u : State) (rest : List Command), u.memory = t.memory → u.Fetching rest →
    u.RunsWord rest (wordOfBytes (byte u.pc.toNat) (byte (u.pc.toNat + 1))))

/-- The byte at `a` after `Fx55` at `s`: a register of `V[0]` to `V[x]` from `I` on, elsewhere what `s` holds
(42_index_memory.md R110). -/
def State.byteAfterStore (s : State) (x : RegNum) (a : Nat) : Byte :=
  if s.I.toNat ≤ a ∧ a ≤ s.I.toNat + x.toNat then s.reg (BitVec.ofNat 4 (a - s.I.toNat)) else s.byteAt a

/-- The byte at `a` after `Fx33` at `s`: the hundreds, tens and ones of `V[x]` from `I` on, elsewhere what `s` holds
(42_index_memory.md R108; log 18). -/
def State.byteAfterDigits (s : State) (x : RegNum) (a : Nat) : Byte :=
  if a = s.I.toNat then BitVec.ofNat 8 ((s.reg x).toNat / 100)
  else if a = s.I.toNat + 1 then BitVec.ofNat 8 ((s.reg x).toNat / 10 % 10)
  else if a = s.I.toNat + 2 then BitVec.ofNat 8 ((s.reg x).toNat % 10)
  else s.byteAt a

/-- A safe state: no fatal fault has occurred (60_exceptions.md R137). -/
abbrev State.Safe (s : State) : Prop := s.halted = false

/-- `t` holds `b` in `V[x]`, and every other register as `s` does. -/
def State.RegWritten (s t : State) (x : RegNum) (b : Byte) : Prop :=
  t.reg x = b ∧ ∀ r, r ≠ x → t.reg r = s.reg r

/-- `t` holds the flag in `VF`, the result in `V[x]` unless `x = 15`, and every other register as `s` does
(41_load_alu.md R98). -/
def State.FlaggedWritten (s t : State) (x : RegNum) (result : Byte) (flag : Bool) : Prop :=
  t.reg VF = (if flag then 1 else 0) ∧ (x ≠ VF → t.reg x = result) ∧ ∀ r, r ≠ x → r ≠ VF → t.reg r = s.reg r

/-- The sprite of `Dxyn` has a set bit that lands on the pixel (`px`, `py`) (43_display.md R117). -/
def State.SpriteBit (s : State) (x y : RegNum) (n : Nibble) (px : Fin 64) (py : Fin 32) : Prop :=
  ∃ row col, row < n.toNat ∧ col < 8 ∧ (s.byteAt (s.I.toNat + row)).getLsbD (7 - col) = true ∧
    px.val = ((s.reg x).toNat + col) % 64 ∧ py.val = ((s.reg y).toNat + row) % 32

/-- Every effective address of an access to `count` bytes from `I` on is at most 0xFFF (20_memory.md R47). -/
abbrev State.InMemory (s : State) (count : Nat) : Prop := count = 0 ∨ s.I.toNat + count ≤ 0x1000

/-- What a fatal fault leaves: the latch set, the report made, nothing else changed (60_exceptions.md R131). -/
def State.Faulted (s : State) (f : FatalFault) (code : BitVec 3) (info : Nat) : State :=
  { s with halted := true, faultCode := code, output := s.output ++ [.fault f info] }

end Sys2Proof.Machine
end

