-- ==== Sys2Proof/Certificates/Slice0/Obligations.lean ====
section
/-! DEFINITION. The statements about the machine. A statement with `t = { s with … }` says the frame whole: what is
not named there is as it was. Statements marked MODEL'S CHOICE or SPEC'S CHOICE rest on a decision and say which. Where a
statement speaks of `commands` or `output`, those two lists are how the model holds what the spec calls a command of the
host (log 1) and a report or a diagnostic to it (log 7). -/

open Sys2Proof Sys2Proof.Machine

/-! ### Encoding -/

/-- 30_encoding.md sections 2 and 4 (R61 to R66): decoding the encoding of any instruction, as a word and as the two
bytes in memory, gives that instruction back. -/
def Obligations.DecodeOfEncodeIsTheInstruction : Prop :=
  ∀ i : Instr, decodeWord (encode i) = some i ∧ decode (encodeBytes i) = .ok (i, [])

/-- 30_encoding.md section 4 (R66): encoding what a word decodes to gives the word. (SPEC'S CHOICE D13, log 20: every
fixed digit is compared, so no two words decode to the same instruction.) -/
def Obligations.EncodeOfDecodeIsTheWord : Prop :=
  ∀ (op : Word) (i : Instr), decodeWord op = some i → encode i = op

/-- 30_encoding.md section 4 (R66): the rows of the opcode table that select a word are exactly the one row of the
instruction it decodes to, or none. (SPEC'S CHOICE D13: every fixed digit is compared.) -/
def Obligations.DecodeSelectsTheOneTableRow : Prop :=
  ∀ op : Word, opcodeTable.filter (·.selects op) = (decodeWord op).toList.map Instr.row

/-- 30_encoding.md section 5 (R68): the unrecognized words, enumerated by major nibble. (SPEC'S CHOICE D13.) -/
def Obligations.UnrecognizedWordsEnumerated : Prop :=
  ∀ op : Word, decodeWord op = none ↔
    (op.toNat / 4096 = 0x0 ∧ op.toNat ≠ 0x00E0 ∧ op.toNat ≠ 0x00EE) ∨
    (op.toNat / 4096 = 0x5 ∧ op.toNat % 16 ≠ 0) ∨
    (op.toNat / 4096 = 0x8 ∧ op.toNat % 16 ∈ [0x8, 0x9, 0xA, 0xB, 0xC, 0xD, 0xF]) ∨
    (op.toNat / 4096 = 0x9 ∧ op.toNat % 16 ≠ 0) ∨
    (op.toNat / 4096 = 0xE ∧ op.toNat % 256 ∉ [0x9E, 0xA1]) ∨
    (op.toNat / 4096 = 0xF ∧ op.toNat % 256 ∉ [0x07, 0x0A, 0x15, 0x18, 0x1E, 0x29, 0x33, 0x55, 0x65])

/-- 30_encoding.md section 4 (R66): words written out from the patterns decode to the instruction they stand for, and
0x5121, whose last digit is not the pattern's 0, decodes to none (SPEC'S CHOICE D13, log 20). -/
def Obligations.SampleWordsDecode : Prop :=
  decodeWord 0x00E0#16 = some .cls ∧ decodeWord 0x2ABC#16 = some (.call 0xABC) ∧
  decodeWord 0x3A5C#16 = some (.seImm 0xA 0x5C) ∧ decodeWord 0x81E7#16 = some (.subnReg 0x1 0xE) ∧
  decodeWord 0xD12F#16 = some (.drw 0x1 0x2 0xF) ∧ decodeWord 0xE7A1#16 = some (.sknp 0x7) ∧
  decodeWord 0xF965#16 = some (.loadRegs 0x9) ∧ decodeWord 0x5121#16 = none

/-! ### The cycle -/

/-- 30_encoding.md sections 1 and 3 (R60, R64): when the two bytes at `pc` decode to an instruction, a step is `exec` of
that instruction: at the same state, except that `Cxkk` finds the random operand of its `CYCLE` in `rnd`: a free byte
when no command is waiting (MODEL'S CHOICE, logs 1 and 2), the argument `r` when `CYCLE(r)` is. -/
def Obligations.StepRunsTheDecodedInstruction : Prop :=
  ∀ (s : State) (i : Instr),
    decode [s.byteAt s.pc.toNat, s.byteAt (s.pc.toNat + 1)] = .ok (i, []) →
    s.halted = false → s.awaiting = false → s.pc.toNat ≤ 0xFFE →
    (s.commands = [] →
      ((∀ x kk, i ≠ .rnd x kk) → step s = exec i s) ∧
      ((∃ x kk, i = .rnd x kk) →
        step s = exec i { s with rnd := Config.entropy s.rndIndex, rndIndex := s.rndIndex + 1 })) ∧
    (∀ r rest, s.commands = .cycle r :: rest →
      ((∀ x kk, i ≠ .rnd x kk) → step s = exec i { s with commands := rest }) ∧
      ((∃ x kk, i = .rnd x kk) → step s = exec i { s with commands := rest, rnd := r }))

/-- 30_encoding.md R67: a word that matches no row of the table changes nothing but `pc`, which goes on by 2, and emits
one diagnostic. -/
def Obligations.UnrecognizedWordIsNoOperation : Prop :=
  ∀ (s : State) (rest : List Command) (op : Word), s.Fetching rest →
    op = wordOfBytes (s.byteAt s.pc.toNat) (s.byteAt (s.pc.toNat + 1)) →
    (∀ row ∈ opcodeTable, row.selects op = false) →
    step s = .next { s with
      pc := s.pc + 2, output := s.output ++ [.diagnostic .unrecognizedOpcode op], commands := rest }

/-- 60_exceptions.md section 1 (R134): a `CYCLE` that would fetch with `pc` above 0xFFE takes `PcOutOfRange`, and
nothing else changes. (SPEC'S CHOICES D9, D11.) -/
def Obligations.FetchOutOfRangeHalts : Prop :=
  ∀ (s : State) (rest : List Command), s.CycleNext rest → s.halted = false → s.awaiting = false →
    0xFFE < s.pc.toNat → step s = .next { s.Faulted .pcOutOfRange 3 s.pc.toNat with commands := rest }

/-- 60_exceptions.md section 2 (R137): while halted a `CYCLE` changes nothing at all. (SPEC'S CHOICE D11.) -/
def Obligations.HaltedCycleChangesNothing : Prop :=
  ∀ (s : State) (rest : List Command), s.halted = true → s.CycleNext rest → step s = .next { s with commands := rest }

/-- 44_keys_timers.md R124: in the wait state a `CYCLE` stores the lowest-numbered key that is down in `V[target]` and
ends the wait, or changes nothing when no key is down; `pc` does not move and no random byte is drawn. -/
def Obligations.WaitCycleTakesTheLowestKey : Prop :=
  ∀ (s : State) (rest : List Command), s.CycleNext rest → s.halted = false → s.awaiting = true →
    ((∀ k < 16, s.key k = false) → step s = .next { s with commands := rest }) ∧
    (∀ k < 16, s.key k = true → (∀ j < k, s.key j = false) →
      ∃ t, step s = .next t ∧ s.RegWritten t s.target (BitVec.ofNat 8 k) ∧
        t = { s with V := t.V, awaiting := false, commands := rest })

/-! ### Load, arithmetic, logic, shift, random -/

/-- 41_load_alu.md R90, R91: the encodings and the effects of load immediate and add immediate, modulo 256 and without
a flag. -/
def Obligations.ImmediateLoadAndAdd : Prop :=
  ∀ (s : State) (x : RegNum) (kk : Byte),
    decodeWord (0x6#4 ++ x ++ kk) = some (.ldImm x kk) ∧
    decodeWord (0x7#4 ++ x ++ kk) = some (.addImm x kk) ∧
    (∃ t, exec (.ldImm x kk) s = .next t ∧ s.RegWritten t x kk ∧ t = { s with V := t.V, pc := s.pc + 2 }) ∧
    (∃ t, exec (.addImm x kk) s = .next t ∧
      s.RegWritten t x (BitVec.ofNat 8 (((s.reg x).toNat + kk.toNat) % 256)) ∧
      t = { s with V := t.V, pc := s.pc + 2 })

/-- 41_load_alu.md R92 to R95: the encodings and the effects of copy and the three logic operations, which write `V[x]`
and leave `VF`, unless it is `V[x]`, as it was. -/
def Obligations.RegisterCopyAndLogic : Prop :=
  ∀ (s : State) (x y : RegNum),
    decodeWord (0x8#4 ++ x ++ y ++ 0x0#4) = some (.ldReg x y) ∧
    decodeWord (0x8#4 ++ x ++ y ++ 0x1#4) = some (.orReg x y) ∧
    decodeWord (0x8#4 ++ x ++ y ++ 0x2#4) = some (.andReg x y) ∧
    decodeWord (0x8#4 ++ x ++ y ++ 0x3#4) = some (.xorReg x y) ∧
    (∃ t, exec (.ldReg x y) s = .next t ∧ s.RegWritten t x (s.reg y) ∧ t = { s with V := t.V, pc := s.pc + 2 }) ∧
    (∃ t, exec (.orReg x y) s = .next t ∧ s.RegWritten t x (s.reg x ||| s.reg y) ∧
      t = { s with V := t.V, pc := s.pc + 2 }) ∧
    (∃ t, exec (.andReg x y) s = .next t ∧ s.RegWritten t x (s.reg x &&& s.reg y) ∧
      t = { s with V := t.V, pc := s.pc + 2 }) ∧
    (∃ t, exec (.xorReg x y) s = .next t ∧ s.RegWritten t x (s.reg x ^^^ s.reg y) ∧
      t = { s with V := t.V, pc := s.pc + 2 })

/-- 41_load_alu.md section 3 (R96 to R98, R100): add with carry out, subtract and reverse subtract with the flag 1 when
there is NO borrow; the flag is what remains in `VF`, also when `x = 15` (SPEC'S CHOICE D12). -/
def Obligations.AddAndSubtractSetTheFlag : Prop :=
  ∀ (s : State) (x y : RegNum),
    (∃ t, exec (.addReg x y) s = .next t ∧
      s.FlaggedWritten t x (BitVec.ofNat 8 (((s.reg x).toNat + (s.reg y).toNat) % 256))
        (decide (256 ≤ (s.reg x).toNat + (s.reg y).toNat)) ∧
      t = { s with V := t.V, pc := s.pc + 2 }) ∧
    (∃ t, exec (.subReg x y) s = .next t ∧
      s.FlaggedWritten t x (BitVec.ofNat 8 ((256 + (s.reg x).toNat - (s.reg y).toNat) % 256))
        (decide ((s.reg y).toNat ≤ (s.reg x).toNat)) ∧
      t = { s with V := t.V, pc := s.pc + 2 }) ∧
    (∃ t, exec (.subnReg x y) s = .next t ∧
      s.FlaggedWritten t x (BitVec.ofNat 8 ((256 + (s.reg y).toNat - (s.reg x).toNat) % 256))
        (decide ((s.reg x).toNat ≤ (s.reg y).toNat)) ∧
      t = { s with V := t.V, pc := s.pc + 2 })

/-- 41_load_alu.md section 3 (R98, R99, R101): the shifts take their operand from `V[y]` or `V[x]` by the option, shift
by one with a zero in, and `VF` ends as the bit out, also when `x = 15` (SPEC'S CHOICE D12). -/
def Obligations.ShiftsTakeTheOptionsOperand : Prop :=
  ∀ (s : State) (x y : RegNum),
    (∃ t, exec (.shrReg x y) s = .next t ∧
      s.FlaggedWritten t x (BitVec.ofNat 8 ((if s.opt.shiftVyNotVx then s.reg y else s.reg x).toNat / 2))
        (decide ((if s.opt.shiftVyNotVx then s.reg y else s.reg x).toNat % 2 = 1)) ∧
      t = { s with V := t.V, pc := s.pc + 2 }) ∧
    (∃ t, exec (.shlReg x y) s = .next t ∧
      s.FlaggedWritten t x (BitVec.ofNat 8 ((if s.opt.shiftVyNotVx then s.reg y else s.reg x).toNat * 2 % 256))
        (decide (128 ≤ (if s.opt.shiftVyNotVx then s.reg y else s.reg x).toNat)) ∧
      t = { s with V := t.V, pc := s.pc + 2 })

/-- 41_load_alu.md section 4 (R102): `AddWithCarry` for all byte pairs, used whole by `8xy4` and for its sum by `7xkk`;
with `x = 15` the flag is what remains in `VF` (SPEC'S CHOICE D12). -/
def Obligations.AddWithCarryLaw : Prop :=
  (∀ a b : Byte, addWithCarry a b = (BitVec.ofNat 8 ((a.toNat + b.toNat) % 256), decide (a.toNat + b.toNat ≥ 256))) ∧
  (∀ (s : State) (x y : RegNum), ∃ t, exec (.addReg x y) s = .next t ∧
    (x ≠ VF → t.reg x = (addWithCarry (s.reg x) (s.reg y)).1) ∧
    t.reg VF = if (addWithCarry (s.reg x) (s.reg y)).2 then 1 else 0) ∧
  (∀ (s : State) (x : RegNum) (kk : Byte), ∃ t, exec (.addImm x kk) s = .next t ∧
    t.reg x = (addWithCarry (s.reg x) kk).1)

/-- 41_load_alu.md section 4 (R103): `SubWithBorrow` for all byte pairs; `8xy5` and `8xy7` store its difference and the
complement of its borrow; with `x = 15` the flag is what remains in `VF` (SPEC'S CHOICE D12). -/
def Obligations.SubWithBorrowLaw : Prop :=
  (∀ a b : Byte, subWithBorrow a b =
    (BitVec.ofInt 8 (((a.toNat : Int) - b.toNat) % 256), decide (a.toNat < b.toNat))) ∧
  (∀ (s : State) (x y : RegNum), ∃ t, exec (.subReg x y) s = .next t ∧
    (x ≠ VF → t.reg x = (subWithBorrow (s.reg x) (s.reg y)).1) ∧
    t.reg VF = if (subWithBorrow (s.reg x) (s.reg y)).2 then 0 else 1) ∧
  (∀ (s : State) (x y : RegNum), ∃ t, exec (.subnReg x y) s = .next t ∧
    (x ≠ VF → t.reg x = (subWithBorrow (s.reg y) (s.reg x)).1) ∧
    t.reg VF = if (subWithBorrow (s.reg y) (s.reg x)).2 then 0 else 1)

/-- 41_load_alu.md section 5 (R104): `Cxkk` puts the random operand, masked by `kk`, in `V[x]`, whatever the operand is
(SPEC'S CHOICE D18; the operand's place in the state is the model's, log 2). With `CYCLE(r)` waiting the operand is
`r`. -/
def Obligations.RandomByteIsMasked : Prop :=
  (∀ (s : State) (x : RegNum) (kk : Byte), ∃ t, exec (.rnd x kk) s = .next t ∧
    s.RegWritten t x (s.rnd &&& kk) ∧ t = { s with V := t.V, pc := s.pc + 2 }) ∧
  (∀ (s : State) (x : RegNum) (kk r : Byte) (rest : List Command),
    s.commands = .cycle r :: rest → s.halted = false → s.awaiting = false → s.pc.toNat ≤ 0xFFE →
    decodeWord (wordOfBytes (s.byteAt s.pc.toNat) (s.byteAt (s.pc.toNat + 1))) = some (.rnd x kk) →
    ∃ t, step s = .next t ∧ s.RegWritten t x (r &&& kk) ∧
      t = { s with V := t.V, pc := s.pc + 2, rnd := r, commands := rest })

/-! ### Control flow -/

/-- 40_control_flow.md R83 to R86: the encodings of the four skips; they advance `pc` by 4 when their condition holds
and by 2 when not, and change nothing else. -/
def Obligations.SkipsAdvanceByFourOrTwo : Prop :=
  ∀ (s : State) (x y : RegNum) (kk : Byte),
    decodeWord (0x3#4 ++ x ++ kk) = some (.seImm x kk) ∧
    decodeWord (0x4#4 ++ x ++ kk) = some (.sneImm x kk) ∧
    decodeWord (0x5#4 ++ x ++ y ++ 0x0#4) = some (.seReg x y) ∧
    decodeWord (0x9#4 ++ x ++ y ++ 0x0#4) = some (.sneReg x y) ∧
    exec (.seImm x kk) s = .next { s with pc := if s.reg x = kk then s.pc + 4 else s.pc + 2 } ∧
    exec (.sneImm x kk) s = .next { s with pc := if s.reg x = kk then s.pc + 2 else s.pc + 4 } ∧
    exec (.seReg x y) s = .next { s with pc := if s.reg x = s.reg y then s.pc + 4 else s.pc + 2 } ∧
    exec (.sneReg x y) s = .next { s with pc := if s.reg x = s.reg y then s.pc + 2 else s.pc + 4 }

/-- 40_control_flow.md R81: the encoding of the jump; it is always taken, and a target below 0x200 also emits
`LowTarget`. -/
def Obligations.JumpIsAlwaysTaken : Prop :=
  ∀ (s : State) (nnn : Addr), decodeWord (0x1#4 ++ nnn) = some (.jp nnn) ∧ ∃ t, exec (.jp nnn) s = .next t ∧ t.pc.toNat = nnn.toNat ∧
    t.output = (if nnn.toNat < 0x200 then s.output ++ [.diagnostic .lowTarget (BitVec.ofNat 16 nnn.toNat)]
      else s.output) ∧
    t = { s with pc := t.pc, output := t.output }

/-- 40_control_flow.md section 3 (R87): `Bnnn` goes to `nnn + V0`, not reduced modulo 4096, with no diagnostic
(SPEC'S CHOICE D16). -/
def Obligations.IndexedJumpAddsV0 : Prop :=
  ∀ (s : State) (nnn : Addr), ∃ t, exec (.jpV0 nnn) s = .next t ∧
    t.pc.toNat = nnn.toNat + (s.reg 0).toNat ∧ t = { s with pc := t.pc }

/-- 40_control_flow.md section 1 (R82), 60_exceptions.md R132, R139: with room on the stack a call saves `pc + 2` in slot
`depth`, counts it and goes to `nnn`, with `LowTarget` below 0x200; with 16 saved it takes `StackOverflow` and nothing
else happens, no diagnostic either. (SPEC'S CHOICES D3, D11, D16.) -/
def Obligations.CallSavesTheReturnAddress : Prop :=
  ∀ (s : State) (nnn : Addr),
    (∀ h : s.depth.val < 16, ∃ t, exec (.call nnn) s = .next t ∧
      t.pc.toNat = nnn.toNat ∧ t.depth.val = s.depth.val + 1 ∧ t.stack[s.depth.val] = s.pc + 2 ∧
      (∀ k : Fin 16, k.val ≠ s.depth.val → t.stack[k.val] = s.stack[k.val]) ∧
      t.output = (if nnn.toNat < 0x200 then s.output ++ [.diagnostic .lowTarget (BitVec.ofNat 16 nnn.toNat)]
        else s.output) ∧
      t = { s with pc := t.pc, depth := t.depth, stack := t.stack, output := t.output }) ∧
    (s.depth.val = 16 → exec (.call nnn) s = .next (s.Faulted .stackOverflow 1 s.pc.toNat))

/-- 40_control_flow.md section 1 (R80), 60_exceptions.md R133: a return goes to the last saved address as it stands and
counts it off, without erasing the slot; with nothing saved it takes `StackUnderflow`. (SPEC'S CHOICES D3, D11.) -/
def Obligations.ReturnPopsTheLastAddress : Prop :=
  ∀ s : State,
    (∀ h : 0 < s.depth.val, ∃ t, exec .ret s = .next t ∧
      t.pc = s.stack[s.depth.val - 1]'(by have := s.depth.isLt; omega) ∧ t.depth.val = s.depth.val - 1 ∧
      t = { s with pc := t.pc, depth := t.depth }) ∧
    (s.depth.val = 0 → exec .ret s = .next (s.Faulted .stackUnderflow 2 s.pc.toNat))

/-- 10_state.md section 6 (R16, "last-in first-out order"), 40_control_flow.md section 1 (R80, R82): a call followed by a
return comes back to the instruction after the call, with the stack as deep as before, every saved address kept, and
nothing else changed but the diagnostic a low call target emits: the return emits none. (SPEC'S CHOICES D3 and D16,
logs 19 and 20.) -/
def Obligations.CallThenReturnComesBack : Prop :=
  ∀ (s : State) (nnn : Addr), s.depth.val < 16 →
    ∃ t u, exec (.call nnn) s = .next t ∧ exec .ret t = .next u ∧ u.pc = s.pc + 2 ∧
      (∀ k : Fin 16, k.val < s.depth.val → u.stack[k.val] = s.stack[k.val]) ∧
      u = { s with pc := s.pc + 2, stack := u.stack, output := t.output }

/-! ### Index register and memory -/

/-- 42_index_memory.md R105, R107: the encodings; `Annn` loads the address, `Fx29` five times the low nibble of
`V[x]`. -/
def Obligations.IndexLoads : Prop :=
  ∀ s : State,
    (∀ nnn : Addr, decodeWord (0xA#4 ++ nnn) = some (.ldI nnn)) ∧
    (∀ x : RegNum, decodeWord (0xF#4 ++ x ++ 0x29#8) = some (.ldF x)) ∧
    (∀ nnn : Addr, ∃ t, exec (.ldI nnn) s = .next t ∧ t.I.toNat = nnn.toNat ∧
      t = { s with I := t.I, pc := s.pc + 2 }) ∧
    (∀ x : RegNum, ∃ t, exec (.ldF x) s = .next t ∧ t.I.toNat = (s.reg x).toNat % 16 * 5 ∧
      t = { s with I := t.I, pc := s.pc + 2 })

/-- 42_index_memory.md section 1 (R106): `Fx1E` adds `V[x]` to `I` modulo 65536 and writes no flag. (SPEC'S CHOICE D2:
`I` is 16 bits wide.) -/
def Obligations.IndexAddWraps : Prop :=
  ∀ (s : State) (x : RegNum), ∃ t, exec (.addI x) s = .next t ∧
    t.I.toNat = (s.I.toNat + (s.reg x).toNat) % 65536 ∧ t = { s with I := t.I, pc := s.pc + 2 }

/-- 42_index_memory.md section 3 (R108): `Fx33` stores the hundreds, tens and ones of `V[x]` at `I`, `I + 1`, `I + 2`, and
every other byte of memory and everything else but `pc` is as before. (SPEC'S CHOICES D8, D28. Memory in its canonical
form is the model's invariant, kept by every step.) -/
def Obligations.DecimalDigitsAreStored : Prop :=
  ∀ (s : State) (x : RegNum), Memory.wf s.memory = true → s.InMemory 3 →
    ∃ t, exec (.ldB x) s = .next t ∧
      (t.byteAt s.I.toNat).toNat = (s.reg x).toNat / 100 ∧
      (t.byteAt (s.I.toNat + 1)).toNat = (s.reg x).toNat / 10 % 10 ∧
      (t.byteAt (s.I.toNat + 2)).toNat = (s.reg x).toNat % 10 ∧
      (∀ a, a < s.I.toNat ∨ s.I.toNat + 3 ≤ a → t.byteAt a = s.byteAt a) ∧
      t = { s with memory := t.memory, pc := s.pc + 2 }

/-- 42_index_memory.md section 3 (R110): `Fx55` stores `V[0]` to `V[x]` from `I` on, every other byte of memory is as
before, and `I` goes on by `x + 1` only when the option says so. (SPEC'S CHOICE D8.) -/
def Obligations.RegistersAreStored : Prop :=
  ∀ (s : State) (x : RegNum), Memory.wf s.memory = true → s.InMemory (x.toNat + 1) →
    ∃ t, exec (.storeRegs x) s = .next t ∧
      (∀ r : RegNum, r.toNat ≤ x.toNat → t.byteAt (s.I.toNat + r.toNat) = s.reg r) ∧
      (∀ a, a < s.I.toNat ∨ s.I.toNat + x.toNat + 1 ≤ a → t.byteAt a = s.byteAt a) ∧
      t.I.toNat = (if s.opt.savingIncreasesRegI then s.I.toNat + x.toNat + 1 else s.I.toNat) ∧
      t = { s with memory := t.memory, I := t.I, pc := s.pc + 2 }

/-- 42_index_memory.md section 3 (R111): `Fx65` loads `V[0]` to `V[x]` from `I` on, the registers above `V[x]` are as
before, and `I` goes on by `x + 1` only when the option says so. (SPEC'S CHOICE D8.) -/
def Obligations.RegistersAreLoaded : Prop :=
  ∀ (s : State) (x : RegNum), s.InMemory (x.toNat + 1) →
    ∃ t, exec (.loadRegs x) s = .next t ∧
      (∀ r : RegNum, t.reg r = if r.toNat ≤ x.toNat then s.byteAt (s.I.toNat + r.toNat) else s.reg r) ∧
      t.I.toNat = (if s.opt.savingIncreasesRegI then s.I.toNat + x.toNat + 1 else s.I.toNat) ∧
      t = { s with V := t.V, I := t.I, pc := s.pc + 2 }

/-- 42_index_memory.md section 3 (R111, round trip), 95_test_vectors.md S4: after `Fx55`, and whatever then happens to
the register file, `Fx65` with the same `x` and the same first `I` gives `V[0]` to `V[x]` their stored values. -/
def Obligations.StoreThenLoadRoundTrips : Prop :=
  ∀ (s : State) (x : RegNum), Memory.wf s.memory = true → s.InMemory (x.toNat + 1) →
    ∃ t, exec (.storeRegs x) s = .next t ∧ ∀ V' : Regs, ∃ u,
      exec (.loadRegs x) { t with V := V', I := s.I } = .next u ∧
      ∀ r : RegNum, r.toNat ≤ x.toNat → u.reg r = s.reg r

/-- 60_exceptions.md section 1 (R135), 20_memory.md section 5 (R47): when an effective address is above 0xFFF the four
memory instructions take `AddressOutOfRange` with the highest one, and nothing else changes: no partial draw or copy.
(SPEC'S CHOICES D8, D11.) -/
def Obligations.AddressOutOfRangeHalts : Prop :=
  ∀ (s : State) (x y : RegNum) (n : Nibble),
    (1 ≤ n.toNat → 0xFFF < s.I.toNat + n.toNat - 1 →
      exec (.drw x y n) s = .next (s.Faulted .addressOutOfRange 4 (s.I.toNat + n.toNat - 1))) ∧
    (0xFFF < s.I.toNat + 2 → exec (.ldB x) s = .next (s.Faulted .addressOutOfRange 4 (s.I.toNat + 2))) ∧
    (0xFFF < s.I.toNat + x.toNat →
      exec (.storeRegs x) s = .next (s.Faulted .addressOutOfRange 4 (s.I.toNat + x.toNat))) ∧
    (0xFFF < s.I.toNat + x.toNat →
      exec (.loadRegs x) s = .next (s.Faulted .addressOutOfRange 4 (s.I.toNat + x.toNat)))

/-- 20_memory.md section 7 (R52): when a step fetches and runs `Fx55` or `Fx33` and its access is in memory, it leaves
`pc` 2 further, and the fetches that follow find what it stored: the very next `CYCLE` runs the word the stored bytes (and
the old ones where it stored nothing) make at `pc`, and so does any later one whose memory is still that. Nothing is
prefetched; it makes no difference whether the store hits both bytes of the next word, one, or its own two.
(SPEC'S CHOICES D8 and D28, logs 11 and 18.) -/
def Obligations.StoreIsSeenByTheNextFetch : Prop :=
  ∀ (s : State) (x : RegNum) (rest : List Command), Memory.wf s.memory = true → s.Fetching rest →
    (decodeWord (wordOfBytes (s.byteAt s.pc.toNat) (s.byteAt (s.pc.toNat + 1))) = some (.storeRegs x) →
      s.InMemory (x.toNat + 1) →
      ∃ t, step s = .next t ∧ t.pc.toNat = s.pc.toNat + 2 ∧ t.commands = rest ∧
        t.FetchesFind (s.byteAfterStore x)) ∧
    (decodeWord (wordOfBytes (s.byteAt s.pc.toNat) (s.byteAt (s.pc.toNat + 1))) = some (.ldB x) →
      s.InMemory 3 →
      ∃ t, step s = .next t ∧ t.pc.toNat = s.pc.toNat + 2 ∧ t.commands = rest ∧
        t.FetchesFind (s.byteAfterDigits x))

/-! ### Display -/

/-- 43_display.md R115: the word 0x00E0 is the clear, and it clears every pixel and touches nothing else. -/
def Obligations.ClearTurnsEveryPixelOff : Prop :=
  decodeWord 0x00E0#16 = some .cls ∧ ∀ s : State, ∃ t, exec .cls s = .next t ∧ (∀ px py, t.pixel px py = false) ∧
    t = { s with display := t.display, pc := s.pc + 2 }

/-- 43_display.md (R116, R117): `Dxyn` XORs the sprite onto the display, every pixel at once, coordinates wrapping; `VF`
is 1 exactly when some set pixel met a set sprite bit, else 0; no other register, no memory and not `I` changes.
`n = 0` draws nothing and sets `VF` to 0 (SPEC'S CHOICE D14; also D8). -/
def Obligations.DrawXorsTheSprite : Prop :=
  ∀ (s : State) (x y : RegNum) (n : Nibble), s.InMemory n.toNat →
    ∃ t, exec (.drw x y n) s = .next t ∧
      (∀ px py, t.pixel px py = true ↔
        (s.pixel px py = true ∧ ¬ s.SpriteBit x y n px py) ∨ (s.pixel px py = false ∧ s.SpriteBit x y n px py)) ∧
      ((∃ px py, s.pixel px py = true ∧ s.SpriteBit x y n px py) → t.reg VF = 1) ∧
      ((∀ px py, s.SpriteBit x y n px py → s.pixel px py = false) → t.reg VF = 0) ∧
      (∀ r, r ≠ VF → t.reg r = s.reg r) ∧
      t = { s with display := t.display, V := t.V, pc := s.pc + 2 }

/-- 43_display.md (R116, R117): drawing the same sprite twice at the same place restores the display; the second draw
collides exactly where the first set a pixel, which on a clear display is when the sprite has a set bit (log 21: the
corner case of R116 that says so of every display does not hold by its own pseudocode). -/
def Obligations.DrawingTwiceRestoresTheDisplay : Prop :=
  ∀ (s : State) (x y : RegNum) (n : Nibble), s.InMemory n.toNat →
    ∃ t u, exec (.drw x y n) s = .next t ∧ exec (.drw x y n) { t with V := s.V } = .next u ∧
      u.display = s.display ∧
      ((∃ px py, s.SpriteBit x y n px py ∧ s.pixel px py = false) → u.reg VF = 1) ∧
      ((∀ px py, s.SpriteBit x y n px py → s.pixel px py = true) → u.reg VF = 0) ∧
      ((∀ px py, s.pixel px py = false) →
        (u.reg VF = 1 ↔ ∃ row < n.toNat, s.byteAt (s.I.toNat + row) ≠ 0))

/-! ### Keys and timers -/

/-- 44_keys_timers.md section 1 (R120, R121), 60_exceptions.md R136: the key skips test the flag of key `V[x]`; above 15
they take `KeyIndexOutOfRange`. (SPEC'S CHOICES D10, D11.) -/
def Obligations.KeySkipsTestTheKeyFlag : Prop :=
  ∀ (s : State) (x : RegNum),
    ((s.reg x).toNat ≤ 15 →
      exec (.skp x) s = .next { s with pc := if s.key (s.reg x).toNat = true then s.pc + 4 else s.pc + 2 } ∧
      exec (.sknp x) s = .next { s with pc := if s.key (s.reg x).toNat = true then s.pc + 2 else s.pc + 4 }) ∧
    (15 < (s.reg x).toNat →
      exec (.skp x) s = .next (s.Faulted .keyIndexOutOfRange 5 (s.reg x).toNat) ∧
      exec (.sknp x) s = .next (s.Faulted .keyIndexOutOfRange 5 (s.reg x).toNat))

/-- 44_keys_timers.md section 2 (R122, R125, R126): `Fx07` reads `DT`, `Fx15` writes `DT`, `Fx18` writes `ST`. (SPEC'S
CHOICE D19, from general knowledge.) -/
def Obligations.TimerTransfers : Prop :=
  ∀ (s : State) (x : RegNum),
    (∃ t, exec (.ldVxDT x) s = .next t ∧ s.RegWritten t x s.DT ∧ t = { s with V := t.V, pc := s.pc + 2 }) ∧
    exec (.ldDTVx x) s = .next { s with DT := s.reg x, pc := s.pc + 2 } ∧
    exec (.ldSTVx x) s = .next { s with ST := s.reg x, pc := s.pc + 2 }

/-- 44_keys_timers.md section 3 (R123): `Fx0A` enters the wait state for `V[x]` and advances; the keys are not looked at
and no register is written. (SPEC'S CHOICE D25.) -/
def Obligations.KeyWaitIsEntered : Prop :=
  ∀ (s : State) (x : RegNum),
    exec (.ldVxK x) s = .next { s with awaiting := true, target := x, pc := s.pc + 2 }

/-- 44_keys_timers.md section 3 (R123, R124), 95_test_vectors.md S8: executing `Fx0A` with a key already down, the next
`CYCLE` stores the lowest such key, and leaves `pc` at the instruction after `Fx0A`. -/
def Obligations.KeyWaitResolvesByLevel : Prop :=
  ∀ (s : State) (x : RegNum) (k : Nat), s.Fetching [] → k < 16 → s.key k = true → (∀ j < k, s.key j = false) →
    decodeWord (wordOfBytes (s.byteAt s.pc.toNat) (s.byteAt (s.pc.toNat + 1))) = some (.ldVxK x) →
    ∃ t u, step s = .next t ∧ step t = .next u ∧ s.RegWritten u x (BitVec.ofNat 8 k) ∧
      u = { s with V := u.V, target := x, pc := s.pc + 2, commands := [] }

/-! ### Host commands -/

/-- 60_exceptions.md R147: `TICK` takes each timer down by one but never below 0, in every state, and touches nothing
else; and nothing else decrements the timers: a step that performs neither `TICK` nor `RESET`, and does not find the
write `Fx15` (`Fx18`) at `pc`, leaves `DT` (`ST`) as it is. -/
def Obligations.TickDecrementsBothTimers : Prop :=
  (∀ (s : State) (rest : List Command), s.commands = .tick :: rest →
    ∃ t, step s = .next t ∧ t.DT.toNat = s.DT.toNat - 1 ∧ t.ST.toNat = s.ST.toNat - 1 ∧
      t = { s with DT := t.DT, ST := t.ST, commands := rest }) ∧
  (∀ s t : State, step s = .next t →
    (∀ rest, s.commands ≠ .tick :: rest) → (∀ image o1 o2 rest, s.commands ≠ .reset image o1 o2 :: rest) →
    ((∀ x, decodeWord (wordOfBytes (s.byteAt s.pc.toNat) (s.byteAt (s.pc.toNat + 1))) ≠ some (.ldDTVx x)) →
      t.DT = s.DT) ∧
    ((∀ x, decodeWord (wordOfBytes (s.byteAt s.pc.toNat) (s.byteAt (s.pc.toNat + 1))) ≠ some (.ldSTVx x)) →
      t.ST = s.ST))

/-- 60_exceptions.md section 7 (R149): `SETKEYS(k)` writes the 16 key flags and nothing else; it does not end a wait.
(SPEC'S CHOICE D17.) -/
def Obligations.SetKeysWritesTheFlags : Prop :=
  ∀ (s : State) (k : BitVec 16) (rest : List Command), s.commands = .setKeys k :: rest →
    ∃ t, step s = .next t ∧ (∀ i < 16, t.key i = k.getLsbD i) ∧ t = { s with keys := t.keys, commands := rest }

/-- 60_exceptions.md section 7 (R150, R151): `READDISPLAY` and `READSTATUS` report to the host and change nothing.
(SPEC'S CHOICES D17, D23.) -/
def Obligations.ReadCommandsOnlyReport : Prop :=
  ∀ (s : State) (rest : List Command),
    (s.commands = .readDisplay :: rest →
      step s = .next { s with commands := rest, output := s.output ++ [.display s.display] }) ∧
    (s.commands = .readStatus :: rest →
      step s = .next { s with
        commands := rest, output := s.output ++ [.status s.DT s.ST s.awaiting s.halted s.faultCode] })

/-- 60_exceptions.md section 7 (R152): `TICK` and `CYCLE` requested at once are performed `TICK` first. (SPEC'S CHOICE
D17.) -/
def Obligations.TickComesBeforeCycle : Prop :=
  ∀ (s : State) (r : Byte), s.commands = [] →
    ∃ t, step (s.issueTickAndCycle r) = .next t ∧ t.commands = [.cycle r] ∧
      t.DT.toNat = s.DT.toNat - 1 ∧ t.ST.toNat = s.ST.toNat - 1 ∧
      t = { s with DT := t.DT, ST := t.ST, commands := t.commands }

/-- 70_reset_and_hazards.md section 1 (R160), 10_state.md section 15 (R25): `RESET` with a 3584-byte image, from any
state, halted or not, leaves every element at its reset value, the font, the reserved region and the image in memory,
and the options given; the commands still waiting and the reports made are kept (MODEL'S CHOICE, logs 1 and 7).
(SPEC'S CHOICES D4 to D7, D11.) -/
def Obligations.ResetPutsEveryElementAtItsValue : Prop :=
  ∀ (s : State) (image : List Byte) (o1 o2 : Bool) (rest : List Command),
    s.commands = .reset image o1 o2 :: rest → image.length = 3584 →
    ∃ t, step s = .next t ∧ t.pc = 0x200 ∧ (∀ r, t.reg r = 0) ∧ t.I = 0 ∧ t.DT = 0 ∧ t.ST = 0 ∧ t.depth.val = 0 ∧
      (∀ k : Fin 16, t.stack[k.val] = 0) ∧ (∀ px py, t.pixel px py = false) ∧ (∀ k < 16, t.key k = false) ∧
      t.awaiting = false ∧ t.target = 0 ∧ t.halted = false ∧ t.faultCode = 0 ∧ t.opt = ⟨o1, o2⟩ ∧
      (∀ k < 80, t.byteAt k = font.getD k 0) ∧ (∀ k < 432, t.byteAt (0x050 + k) = 0) ∧
      (∀ k < 3584, t.byteAt (0x200 + k) = image.getD k 0) ∧
      t.commands = rest ∧ t.output = s.output

/-- 10_state.md section 15 (R25), 92_eei_decisions.md D6, D7: `RESET` for EVERY value of the parameters `FONT` and
`RESERVED_INIT`: the bytes given are the bytes read, and memory is in its canonical form. -/
def Obligations.BootMemoryHoldsAnyFont : Prop :=
  ∀ (s : State) (fontBytes reserved image : List Byte) (o1 o2 : Bool),
    fontBytes.length = 80 → reserved.length = 432 → image.length = 3584 →
    Memory.wf (s.construct fontBytes reserved image o1 o2).memory = true ∧
    (∀ k < 80, (s.construct fontBytes reserved image o1 o2).byteAt k = fontBytes.getD k 0) ∧
    (∀ k < 432, (s.construct fontBytes reserved image o1 o2).byteAt (0x050 + k) = reserved.getD k 0) ∧
    (∀ k < 3584, (s.construct fontBytes reserved image o1 o2).byteAt (0x200 + k) = image.getD k 0)

/-- 93_implementation_defined.md row 22, 92_eei_decisions.md D27: `RESET` with an image of any other length is refused. -/
def Obligations.ResetRefusesOtherImageLengths : Prop :=
  ∀ (s : State) (image : List Byte) (o1 o2 : Bool) (rest : List Command),
    s.commands = .reset image o1 o2 :: rest → image.length ≠ 3584 → step s = .refused (.imageLength image.length)

/-- 10_state.md section 15 (R25): every element of the state after reset. MODEL'S CHOICE, log 3: the image is zeros at
0x200 to 0xFFF and both options are off. PRESUMED, log 4 (D7): the font bytes at 0x000 to 0x04F. Log 5 (D6): the reserved
bytes are zeros. Logs 1 and 7: no command waits and nothing is reported. (SPEC'S CHOICES D4, D5 and D11 for the rest,
logs 6 and 8.) -/
def Obligations.StateAfterReset : Prop :=
  State.reset.pc = 0x200 ∧ (∀ r, State.reset.reg r = 0) ∧ State.reset.I = 0 ∧ State.reset.DT = 0 ∧
  State.reset.ST = 0 ∧ State.reset.depth.val = 0 ∧ (∀ k : Fin 16, State.reset.stack[k.val] = 0) ∧
  (∀ px py, State.reset.pixel px py = false) ∧ (∀ k < 16, State.reset.key k = false) ∧
  State.reset.awaiting = false ∧ State.reset.target = 0 ∧ State.reset.opt = ⟨false, false⟩ ∧
  State.reset.halted = false ∧ State.reset.faultCode = 0 ∧
  (∀ k < 80, State.reset.byteAt k = font.getD k 0) ∧ font.length = 80 ∧
  State.reset.byteAt 0x000 = 0xF0 ∧ State.reset.byteAt 0x04F = 0x80 ∧
  (∀ a, 0x050 ≤ a → a ≤ 0x1FF → State.reset.byteAt a = 0) ∧
  (∀ a, 0x200 ≤ a → a ≤ 0xFFF → State.reset.byteAt a = 0) ∧
  State.reset.commands = [] ∧ State.reset.output = []

/-! ### The whole machine -/

/-- 10_state.md section 16 (R26): every step keeps the invariant. -/
def Obligations.EveryStepKeepsTheInvariant : Prop :=
  ∀ s t : State, s.Inv → step s = .next t → t.Inv

/-- 10_state.md section 16 (R26): the invariant holds after reset. -/
def Obligations.ResetMeetsTheInvariant : Prop := State.reset.Inv

/-- 93_implementation_defined.md section 1.2 ("Nothing is treated as stuck"): every state has a next state under every
command but a `RESET` whose image has another length. -/
def Obligations.EveryStepGoesOn : Prop :=
  ∀ s : State,
    (∀ image o1 o2 rest, s.commands = .reset image o1 o2 :: rest → image.length = 3584) → ∃ t, step s = .next t

/-- 60_exceptions.md section 1 (R131): faults are precise. A step that halts a machine that was not halted changes
nothing but the latch and makes one report. (SPEC'S CHOICE D11.) -/
def Obligations.FaultsArePrecise : Prop :=
  ∀ s t : State, s.halted = false → step s = .next t → t.halted = true →
    ∃ f info, t = { s.Faulted f f.code info with commands := s.commands.tail }

/-- 60_exceptions.md section 2 (R137): only `RESET` leaves the halted state; until then no command changes the latch or
anything but the timers, the key flags and what is reported. (SPEC'S CHOICE D11.) -/
def Obligations.OnlyResetLeavesTheHaltedState : Prop :=
  ∀ s t : State, s.halted = true → (∀ image o1 o2 rest, s.commands ≠ .reset image o1 o2 :: rest) →
    step s = .next t →
    t = { s with DT := t.DT, ST := t.ST, keys := t.keys, output := t.output, commands := s.commands.tail }

/-- 10_state.md section 14 (R24), 20_memory.md section 1 (R40): which instructions write which state element besides the
registers: no other instruction changes memory, the display, the stack, a timer, `I`, the wait state or the fault
latch, and none changes a key flag or an option. -/
def Obligations.OnlyTheseInstructionsWrite : Prop :=
  ∀ (i : Instr) (s t : State), exec i s = .next t →
    (t.memory ≠ s.memory → ∃ x, i = .ldB x ∨ i = .storeRegs x) ∧
    (t.display ≠ s.display → i = .cls ∨ ∃ x y n, i = .drw x y n) ∧
    (t.stack ≠ s.stack → ∃ nnn, i = .call nnn) ∧
    (t.depth ≠ s.depth → i = .ret ∨ ∃ nnn, i = .call nnn) ∧
    (t.DT ≠ s.DT → ∃ x, i = .ldDTVx x) ∧
    (t.ST ≠ s.ST → ∃ x, i = .ldSTVx x) ∧
    (t.I ≠ s.I → (∃ nnn, i = .ldI nnn) ∨ ∃ x, i = .addI x ∨ i = .ldF x ∨ i = .storeRegs x ∨ i = .loadRegs x) ∧
    (t.awaiting ≠ s.awaiting ∨ t.target ≠ s.target → ∃ x, i = .ldVxK x) ∧
    (t.halted ≠ s.halted ∨ t.faultCode ≠ s.faultCode → i = .ret ∨ (∃ nnn, i = .call nnn) ∨
      (∃ x y n, i = .drw x y n) ∨
      ∃ x, i = .ldB x ∨ i = .storeRegs x ∨ i = .loadRegs x ∨ i = .skp x ∨ i = .sknp x) ∧
    t.keys = s.keys ∧ t.opt = s.opt ∧ t.rnd = s.rnd ∧ t.rndIndex = s.rndIndex ∧ t.commands = s.commands

/-- 10_state.md sections 1 and 2 (R10, R11): an instruction changes no register but its destination `V[x]` (`V[0]` to
`V[x]` for `Fx65`) and, for the six flag-producing instructions, `VF`. -/
def Obligations.OnlyTheDestinationRegisterChanges : Prop :=
  ∀ (i : Instr) (s t : State) (r : RegNum), exec i s = .next t → t.reg r ≠ s.reg r →
    (∃ kk, i = .ldImm r kk ∨ i = .addImm r kk ∨ i = .rnd r kk) ∨
    (∃ y, i = .ldReg r y ∨ i = .orReg r y ∨ i = .andReg r y ∨ i = .xorReg r y) ∨
    (∃ x y, (r = x ∨ r = VF) ∧
      (i = .addReg x y ∨ i = .subReg x y ∨ i = .shrReg x y ∨ i = .subnReg x y ∨ i = .shlReg x y)) ∨
    (r = VF ∧ ∃ x y n, i = .drw x y n) ∨
    i = .ldVxDT r ∨ (∃ x, r.toNat ≤ x.toNat ∧ i = .loadRegs x)

/-- 41_load_alu.md section 5 (R104), 60_exceptions.md section 7 (R148): the random operand affects no instruction but
`Cxkk`. -/
def Obligations.RandomOperandAffectsOnlyRnd : Prop :=
  ∀ (i : Instr) (s t : State) (r : Byte), (∀ x kk, i ≠ .rnd x kk) → exec i s = .next t →
    exec i { s with rnd := r } = .next { t with rnd := r }

/-- 10_state.md section 10 (R20), 30_encoding.md section 6 (R69): the options affect no instruction but `8xy6`, `8xyE`,
`Fx55` and `Fx65`. -/
def Obligations.OptionsAffectOnlyFourInstructions : Prop :=
  ∀ (i : Instr) (s t : State) (o : Options),
    (∀ x y, i ≠ .shrReg x y ∧ i ≠ .shlReg x y) → (∀ x, i ≠ .storeRegs x ∧ i ≠ .loadRegs x) → exec i s = .next t →
    exec i { s with opt := o } = .next { t with opt := o }

/-- 60_exceptions.md section 3 (R140) and section 7 (R148): what has been reported affects no instruction, and an
instruction makes at most one report. -/
def Obligations.ReportsAffectNothing : Prop :=
  ∀ (i : Instr) (s t : State) (o : List Report), exec i s = .next t →
    ∃ added : List Report, added.length ≤ 1 ∧ t.output = s.output ++ added ∧
      exec i { s with output := o } = .next { t with output := o ++ added }
end

