-- ==== Sys2Proof/Laws/Decode.lean ====
section
/-! SUPPORT. The fields of a word put together from its nibbles, and the fields of the word of two bytes. -/

namespace Sys2Proof

/-- Appending bit vectors is adding in place-value form. -/
theorem toNat_append_add {v w : Nat} (a : BitVec v) (b : BitVec w) : (a ++ b).toNat = a.toNat * 2 ^ w + b.toNat := by
  rw [BitVec.toNat_append, Nat.shiftLeft_eq, Nat.mul_comm, ← Nat.two_pow_add_eq_or_of_lt b.isLt]

/-- A word is its address operand under its major nibble. -/
theorem Word.toNat_addr (c : Nibble) (a : Addr) : (c ++ a : BitVec (4 + 12)).toNat = c.toNat * 4096 + a.toNat := by
  rw [toNat_append_add]; omega

/-- A word is a major nibble, a register number and a byte. -/
theorem Word.toNat_regByte (c : Nibble) (x : RegNum) (k : Byte) :
    (c ++ x ++ k : BitVec (4 + 4 + 8)).toNat = c.toNat * 4096 + x.toNat * 256 + k.toNat := by
  rw [toNat_append_add, toNat_append_add]; omega

/-- A word is four nibbles. -/
theorem Word.toNat_nibbles (c : Nibble) (x y : RegNum) (n : Nibble) :
    (c ++ x ++ y ++ n : BitVec (4 + 4 + 4 + 4)).toNat = c.toNat * 4096 + x.toNat * 256 + y.toNat * 16 + n.toNat := by
  rw [toNat_append_add, toNat_append_add, toNat_append_add]; omega

variable (op : Word)

theorem Word.toNat_n1 : op.n1.toNat = op.toNat / 4096 := by
  have := op.isLt
  simp [Word.n1, BitVec.extractLsb'_toNat, Nat.shiftRight_eq_div_pow]; omega

theorem Word.toNat_x : op.x.toNat = op.toNat / 256 % 16 := by
  simp [Word.x, BitVec.extractLsb'_toNat, Nat.shiftRight_eq_div_pow]

theorem Word.toNat_y : op.y.toNat = op.toNat / 16 % 16 := by
  simp [Word.y, BitVec.extractLsb'_toNat, Nat.shiftRight_eq_div_pow]

theorem Word.toNat_n : op.n.toNat = op.toNat % 16 := by
  simp [Word.n, BitVec.extractLsb'_toNat]

theorem Word.toNat_kk : op.kk.toNat = op.toNat % 256 := by
  simp [Word.kk, BitVec.extractLsb'_toNat]

theorem Word.toNat_nnn : op.nnn.toNat = op.toNat % 4096 := by
  simp [Word.nnn, BitVec.extractLsb'_toNat]

theorem toNat_wordOfBytes (b1 b2 : Byte) : (wordOfBytes b1 b2).toNat = b1.toNat * 256 + b2.toNat := by
  rw [wordOfBytes, toNat_append_add]; omega

/-- The two halves of a word make it again. -/
theorem wordOfBytes_halves : wordOfBytes (op.extractLsb' 8 8) (op.extractLsb' 0 8) = op := by
  apply BitVec.eq_of_toNat_eq
  have := op.isLt
  rw [toNat_wordOfBytes]
  simp [BitVec.extractLsb'_toNat, Nat.shiftRight_eq_div_pow]; omega

/-- Decoding two bytes is decoding the word they make. -/
theorem decode_pair (b1 b2 : Byte) (rest : List Byte) (i : Instr) (h : decodeWord (wordOfBytes b1 b2) = some i) :
    decode (b1 :: b2 :: rest) = .ok (i, rest) := by
  simp [decode, h]

/-! ### The fields of a word put together -/

@[simp] theorem Word.n1_addr (c : Nibble) (a : Addr) : Word.n1 (c ++ a : BitVec (4 + 12)) = c := by
  apply BitVec.eq_of_toNat_eq
  rw [Word.toNat_n1, Word.toNat_addr]
  have := c.isLt; have := a.isLt; omega

@[simp] theorem Word.nnn_addr (c : Nibble) (a : Addr) : Word.nnn (c ++ a : BitVec (4 + 12)) = a := by
  apply BitVec.eq_of_toNat_eq
  rw [Word.toNat_nnn, Word.toNat_addr]
  have := c.isLt; have := a.isLt; omega

@[simp] theorem Word.n1_regByte (c : Nibble) (x : RegNum) (k : Byte) : Word.n1 (c ++ x ++ k : BitVec (4 + 4 + 8)) = c := by
  apply BitVec.eq_of_toNat_eq
  rw [Word.toNat_n1, Word.toNat_regByte]
  have := c.isLt; have := x.isLt; have := k.isLt; omega

@[simp] theorem Word.x_regByte (c : Nibble) (x : RegNum) (k : Byte) : Word.x (c ++ x ++ k : BitVec (4 + 4 + 8)) = x := by
  apply BitVec.eq_of_toNat_eq
  rw [Word.toNat_x, Word.toNat_regByte]
  have := c.isLt; have := x.isLt; have := k.isLt; omega

@[simp] theorem Word.kk_regByte (c : Nibble) (x : RegNum) (k : Byte) : Word.kk (c ++ x ++ k : BitVec (4 + 4 + 8)) = k := by
  apply BitVec.eq_of_toNat_eq
  rw [Word.toNat_kk, Word.toNat_regByte]
  have := c.isLt; have := x.isLt; have := k.isLt; omega

@[simp] theorem Word.n1_nibbles (c : Nibble) (x y : RegNum) (n : Nibble) : Word.n1 (c ++ x ++ y ++ n : BitVec (4 + 4 + 4 + 4)) = c := by
  apply BitVec.eq_of_toNat_eq
  rw [Word.toNat_n1, Word.toNat_nibbles]
  have := c.isLt; have := x.isLt; have := y.isLt; have := n.isLt; omega

@[simp] theorem Word.x_nibbles (c : Nibble) (x y : RegNum) (n : Nibble) : Word.x (c ++ x ++ y ++ n : BitVec (4 + 4 + 4 + 4)) = x := by
  apply BitVec.eq_of_toNat_eq
  rw [Word.toNat_x, Word.toNat_nibbles]
  have := c.isLt; have := x.isLt; have := y.isLt; have := n.isLt; omega

@[simp] theorem Word.y_nibbles (c : Nibble) (x y : RegNum) (n : Nibble) : Word.y (c ++ x ++ y ++ n : BitVec (4 + 4 + 4 + 4)) = y := by
  apply BitVec.eq_of_toNat_eq
  rw [Word.toNat_y, Word.toNat_nibbles]
  have := c.isLt; have := x.isLt; have := y.isLt; have := n.isLt; omega

@[simp] theorem Word.n_nibbles (c : Nibble) (x y : RegNum) (n : Nibble) : Word.n (c ++ x ++ y ++ n : BitVec (4 + 4 + 4 + 4)) = n := by
  apply BitVec.eq_of_toNat_eq
  rw [Word.toNat_n, Word.toNat_nibbles]
  have := c.isLt; have := x.isLt; have := y.isLt; have := n.isLt; omega

/-! ### The three masks of the opcode table -/

theorem and_majorMask : op &&& 0xF000#16 = (op.n1 ++ 0#12 : BitVec (4 + 12)) := by
  apply BitVec.eq_of_getLsbD_eq
  intro i hi
  change (op &&& 0xF000#16).getLsbD i = @BitVec.getLsbD (4 + 12) (op.n1 ++ 0#12) i
  rw [BitVec.getLsbD_append]
  interval_cases i <;> simp [Word.n1]

theorem and_nibbleMask : op &&& 0xF00F#16 = (op.n1 ++ 0#4 ++ 0#4 ++ op.n : BitVec (4 + 4 + 4 + 4)) := by
  apply BitVec.eq_of_getLsbD_eq
  intro i hi
  change (op &&& 0xF00F#16).getLsbD i = @BitVec.getLsbD (4 + 4 + 4 + 4) (op.n1 ++ 0#4 ++ 0#4 ++ op.n) i
  rw [BitVec.getLsbD_append, BitVec.getLsbD_append, BitVec.getLsbD_append]
  interval_cases i <;> simp [Word.n1, Word.n]

theorem and_byteMask : op &&& 0xF0FF#16 = (op.n1 ++ 0#4 ++ op.kk : BitVec (4 + 4 + 8)) := by
  apply BitVec.eq_of_getLsbD_eq
  intro i hi
  change (op &&& 0xF0FF#16).getLsbD i = @BitVec.getLsbD (4 + 4 + 8) (op.n1 ++ 0#4 ++ op.kk) i
  rw [BitVec.getLsbD_append, BitVec.getLsbD_append]
  interval_cases i <;> simp [Word.n1, Word.kk]

end Sys2Proof
end

