-- ==== Sys2Proof/Laws/State.lean ====
section
/-! SUPPORT. One lemma per field of State per update: what the update leaves in the field. -/

namespace Sys2Proof.Machine

variable (s : State)

/-! `State.setReg` -/
@[simp] theorem State.setReg_V (r : RegNum) (b : Byte) : (s.setReg r b).V = s.V.write r b := rfl
@[simp] theorem State.setReg_pc (r : RegNum) (b : Byte) : (s.setReg r b).pc = s.pc := rfl
@[simp] theorem State.setReg_I (r : RegNum) (b : Byte) : (s.setReg r b).I = s.I := rfl
@[simp] theorem State.setReg_DT (r : RegNum) (b : Byte) : (s.setReg r b).DT = s.DT := rfl
@[simp] theorem State.setReg_ST (r : RegNum) (b : Byte) : (s.setReg r b).ST = s.ST := rfl
@[simp] theorem State.setReg_depth (r : RegNum) (b : Byte) : (s.setReg r b).depth = s.depth := rfl
@[simp] theorem State.setReg_stack (r : RegNum) (b : Byte) : (s.setReg r b).stack = s.stack := rfl
@[simp] theorem State.setReg_display (r : RegNum) (b : Byte) : (s.setReg r b).display = s.display := rfl
@[simp] theorem State.setReg_keys (r : RegNum) (b : Byte) : (s.setReg r b).keys = s.keys := rfl
@[simp] theorem State.setReg_awaiting (r : RegNum) (b : Byte) : (s.setReg r b).awaiting = s.awaiting := rfl
@[simp] theorem State.setReg_target (r : RegNum) (b : Byte) : (s.setReg r b).target = s.target := rfl
@[simp] theorem State.setReg_opt (r : RegNum) (b : Byte) : (s.setReg r b).opt = s.opt := rfl
@[simp] theorem State.setReg_halted (r : RegNum) (b : Byte) : (s.setReg r b).halted = s.halted := rfl
@[simp] theorem State.setReg_faultCode (r : RegNum) (b : Byte) : (s.setReg r b).faultCode = s.faultCode := rfl
@[simp] theorem State.setReg_memory (r : RegNum) (b : Byte) : (s.setReg r b).memory = s.memory := rfl
@[simp] theorem State.setReg_rnd (r : RegNum) (b : Byte) : (s.setReg r b).rnd = s.rnd := rfl
@[simp] theorem State.setReg_rndIndex (r : RegNum) (b : Byte) : (s.setReg r b).rndIndex = s.rndIndex := rfl
@[simp] theorem State.setReg_commands (r : RegNum) (b : Byte) : (s.setReg r b).commands = s.commands := rfl
@[simp] theorem State.setReg_output (r : RegNum) (b : Byte) : (s.setReg r b).output = s.output := rfl

/-! `State.setRegs` -/
@[simp] theorem State.setRegs_V (W : Regs) : (s.setRegs W).V = W := rfl
@[simp] theorem State.setRegs_pc (W : Regs) : (s.setRegs W).pc = s.pc := rfl
@[simp] theorem State.setRegs_I (W : Regs) : (s.setRegs W).I = s.I := rfl
@[simp] theorem State.setRegs_DT (W : Regs) : (s.setRegs W).DT = s.DT := rfl
@[simp] theorem State.setRegs_ST (W : Regs) : (s.setRegs W).ST = s.ST := rfl
@[simp] theorem State.setRegs_depth (W : Regs) : (s.setRegs W).depth = s.depth := rfl
@[simp] theorem State.setRegs_stack (W : Regs) : (s.setRegs W).stack = s.stack := rfl
@[simp] theorem State.setRegs_display (W : Regs) : (s.setRegs W).display = s.display := rfl
@[simp] theorem State.setRegs_keys (W : Regs) : (s.setRegs W).keys = s.keys := rfl
@[simp] theorem State.setRegs_awaiting (W : Regs) : (s.setRegs W).awaiting = s.awaiting := rfl
@[simp] theorem State.setRegs_target (W : Regs) : (s.setRegs W).target = s.target := rfl
@[simp] theorem State.setRegs_opt (W : Regs) : (s.setRegs W).opt = s.opt := rfl
@[simp] theorem State.setRegs_halted (W : Regs) : (s.setRegs W).halted = s.halted := rfl
@[simp] theorem State.setRegs_faultCode (W : Regs) : (s.setRegs W).faultCode = s.faultCode := rfl
@[simp] theorem State.setRegs_memory (W : Regs) : (s.setRegs W).memory = s.memory := rfl
@[simp] theorem State.setRegs_rnd (W : Regs) : (s.setRegs W).rnd = s.rnd := rfl
@[simp] theorem State.setRegs_rndIndex (W : Regs) : (s.setRegs W).rndIndex = s.rndIndex := rfl
@[simp] theorem State.setRegs_commands (W : Regs) : (s.setRegs W).commands = s.commands := rfl
@[simp] theorem State.setRegs_output (W : Regs) : (s.setRegs W).output = s.output := rfl

/-! `State.setPc` -/
@[simp] theorem State.setPc_V (p : Word) : (s.setPc p).V = s.V := rfl
@[simp] theorem State.setPc_pc (p : Word) : (s.setPc p).pc = p := rfl
@[simp] theorem State.setPc_I (p : Word) : (s.setPc p).I = s.I := rfl
@[simp] theorem State.setPc_DT (p : Word) : (s.setPc p).DT = s.DT := rfl
@[simp] theorem State.setPc_ST (p : Word) : (s.setPc p).ST = s.ST := rfl
@[simp] theorem State.setPc_depth (p : Word) : (s.setPc p).depth = s.depth := rfl
@[simp] theorem State.setPc_stack (p : Word) : (s.setPc p).stack = s.stack := rfl
@[simp] theorem State.setPc_display (p : Word) : (s.setPc p).display = s.display := rfl
@[simp] theorem State.setPc_keys (p : Word) : (s.setPc p).keys = s.keys := rfl
@[simp] theorem State.setPc_awaiting (p : Word) : (s.setPc p).awaiting = s.awaiting := rfl
@[simp] theorem State.setPc_target (p : Word) : (s.setPc p).target = s.target := rfl
@[simp] theorem State.setPc_opt (p : Word) : (s.setPc p).opt = s.opt := rfl
@[simp] theorem State.setPc_halted (p : Word) : (s.setPc p).halted = s.halted := rfl
@[simp] theorem State.setPc_faultCode (p : Word) : (s.setPc p).faultCode = s.faultCode := rfl
@[simp] theorem State.setPc_memory (p : Word) : (s.setPc p).memory = s.memory := rfl
@[simp] theorem State.setPc_rnd (p : Word) : (s.setPc p).rnd = s.rnd := rfl
@[simp] theorem State.setPc_rndIndex (p : Word) : (s.setPc p).rndIndex = s.rndIndex := rfl
@[simp] theorem State.setPc_commands (p : Word) : (s.setPc p).commands = s.commands := rfl
@[simp] theorem State.setPc_output (p : Word) : (s.setPc p).output = s.output := rfl

/-! `State.advance` -/
@[simp] theorem State.advance_V : (s.advance).V = s.V := rfl
@[simp] theorem State.advance_pc : (s.advance).pc = s.pc + 2 := rfl
@[simp] theorem State.advance_I : (s.advance).I = s.I := rfl
@[simp] theorem State.advance_DT : (s.advance).DT = s.DT := rfl
@[simp] theorem State.advance_ST : (s.advance).ST = s.ST := rfl
@[simp] theorem State.advance_depth : (s.advance).depth = s.depth := rfl
@[simp] theorem State.advance_stack : (s.advance).stack = s.stack := rfl
@[simp] theorem State.advance_display : (s.advance).display = s.display := rfl
@[simp] theorem State.advance_keys : (s.advance).keys = s.keys := rfl
@[simp] theorem State.advance_awaiting : (s.advance).awaiting = s.awaiting := rfl
@[simp] theorem State.advance_target : (s.advance).target = s.target := rfl
@[simp] theorem State.advance_opt : (s.advance).opt = s.opt := rfl
@[simp] theorem State.advance_halted : (s.advance).halted = s.halted := rfl
@[simp] theorem State.advance_faultCode : (s.advance).faultCode = s.faultCode := rfl
@[simp] theorem State.advance_memory : (s.advance).memory = s.memory := rfl
@[simp] theorem State.advance_rnd : (s.advance).rnd = s.rnd := rfl
@[simp] theorem State.advance_rndIndex : (s.advance).rndIndex = s.rndIndex := rfl
@[simp] theorem State.advance_commands : (s.advance).commands = s.commands := rfl
@[simp] theorem State.advance_output : (s.advance).output = s.output := rfl

/-! `State.skipIf` -/
@[simp] theorem State.skipIf_V (c : Bool) : (s.skipIf c).V = s.V := rfl
@[simp] theorem State.skipIf_pc (c : Bool) : (s.skipIf c).pc = if c then s.pc + 4 else s.pc + 2 := rfl
@[simp] theorem State.skipIf_I (c : Bool) : (s.skipIf c).I = s.I := rfl
@[simp] theorem State.skipIf_DT (c : Bool) : (s.skipIf c).DT = s.DT := rfl
@[simp] theorem State.skipIf_ST (c : Bool) : (s.skipIf c).ST = s.ST := rfl
@[simp] theorem State.skipIf_depth (c : Bool) : (s.skipIf c).depth = s.depth := rfl
@[simp] theorem State.skipIf_stack (c : Bool) : (s.skipIf c).stack = s.stack := rfl
@[simp] theorem State.skipIf_display (c : Bool) : (s.skipIf c).display = s.display := rfl
@[simp] theorem State.skipIf_keys (c : Bool) : (s.skipIf c).keys = s.keys := rfl
@[simp] theorem State.skipIf_awaiting (c : Bool) : (s.skipIf c).awaiting = s.awaiting := rfl
@[simp] theorem State.skipIf_target (c : Bool) : (s.skipIf c).target = s.target := rfl
@[simp] theorem State.skipIf_opt (c : Bool) : (s.skipIf c).opt = s.opt := rfl
@[simp] theorem State.skipIf_halted (c : Bool) : (s.skipIf c).halted = s.halted := rfl
@[simp] theorem State.skipIf_faultCode (c : Bool) : (s.skipIf c).faultCode = s.faultCode := rfl
@[simp] theorem State.skipIf_memory (c : Bool) : (s.skipIf c).memory = s.memory := rfl
@[simp] theorem State.skipIf_rnd (c : Bool) : (s.skipIf c).rnd = s.rnd := rfl
@[simp] theorem State.skipIf_rndIndex (c : Bool) : (s.skipIf c).rndIndex = s.rndIndex := rfl
@[simp] theorem State.skipIf_commands (c : Bool) : (s.skipIf c).commands = s.commands := rfl
@[simp] theorem State.skipIf_output (c : Bool) : (s.skipIf c).output = s.output := rfl

/-! `State.setI` -/
@[simp] theorem State.setI_V (v : Word) : (s.setI v).V = s.V := rfl
@[simp] theorem State.setI_pc (v : Word) : (s.setI v).pc = s.pc := rfl
@[simp] theorem State.setI_I (v : Word) : (s.setI v).I = v := rfl
@[simp] theorem State.setI_DT (v : Word) : (s.setI v).DT = s.DT := rfl
@[simp] theorem State.setI_ST (v : Word) : (s.setI v).ST = s.ST := rfl
@[simp] theorem State.setI_depth (v : Word) : (s.setI v).depth = s.depth := rfl
@[simp] theorem State.setI_stack (v : Word) : (s.setI v).stack = s.stack := rfl
@[simp] theorem State.setI_display (v : Word) : (s.setI v).display = s.display := rfl
@[simp] theorem State.setI_keys (v : Word) : (s.setI v).keys = s.keys := rfl
@[simp] theorem State.setI_awaiting (v : Word) : (s.setI v).awaiting = s.awaiting := rfl
@[simp] theorem State.setI_target (v : Word) : (s.setI v).target = s.target := rfl
@[simp] theorem State.setI_opt (v : Word) : (s.setI v).opt = s.opt := rfl
@[simp] theorem State.setI_halted (v : Word) : (s.setI v).halted = s.halted := rfl
@[simp] theorem State.setI_faultCode (v : Word) : (s.setI v).faultCode = s.faultCode := rfl
@[simp] theorem State.setI_memory (v : Word) : (s.setI v).memory = s.memory := rfl
@[simp] theorem State.setI_rnd (v : Word) : (s.setI v).rnd = s.rnd := rfl
@[simp] theorem State.setI_rndIndex (v : Word) : (s.setI v).rndIndex = s.rndIndex := rfl
@[simp] theorem State.setI_commands (v : Word) : (s.setI v).commands = s.commands := rfl
@[simp] theorem State.setI_output (v : Word) : (s.setI v).output = s.output := rfl

/-! `State.setDT` -/
@[simp] theorem State.setDT_V (v : Byte) : (s.setDT v).V = s.V := rfl
@[simp] theorem State.setDT_pc (v : Byte) : (s.setDT v).pc = s.pc := rfl
@[simp] theorem State.setDT_I (v : Byte) : (s.setDT v).I = s.I := rfl
@[simp] theorem State.setDT_DT (v : Byte) : (s.setDT v).DT = v := rfl
@[simp] theorem State.setDT_ST (v : Byte) : (s.setDT v).ST = s.ST := rfl
@[simp] theorem State.setDT_depth (v : Byte) : (s.setDT v).depth = s.depth := rfl
@[simp] theorem State.setDT_stack (v : Byte) : (s.setDT v).stack = s.stack := rfl
@[simp] theorem State.setDT_display (v : Byte) : (s.setDT v).display = s.display := rfl
@[simp] theorem State.setDT_keys (v : Byte) : (s.setDT v).keys = s.keys := rfl
@[simp] theorem State.setDT_awaiting (v : Byte) : (s.setDT v).awaiting = s.awaiting := rfl
@[simp] theorem State.setDT_target (v : Byte) : (s.setDT v).target = s.target := rfl
@[simp] theorem State.setDT_opt (v : Byte) : (s.setDT v).opt = s.opt := rfl
@[simp] theorem State.setDT_halted (v : Byte) : (s.setDT v).halted = s.halted := rfl
@[simp] theorem State.setDT_faultCode (v : Byte) : (s.setDT v).faultCode = s.faultCode := rfl
@[simp] theorem State.setDT_memory (v : Byte) : (s.setDT v).memory = s.memory := rfl
@[simp] theorem State.setDT_rnd (v : Byte) : (s.setDT v).rnd = s.rnd := rfl
@[simp] theorem State.setDT_rndIndex (v : Byte) : (s.setDT v).rndIndex = s.rndIndex := rfl
@[simp] theorem State.setDT_commands (v : Byte) : (s.setDT v).commands = s.commands := rfl
@[simp] theorem State.setDT_output (v : Byte) : (s.setDT v).output = s.output := rfl

/-! `State.setST` -/
@[simp] theorem State.setST_V (v : Byte) : (s.setST v).V = s.V := rfl
@[simp] theorem State.setST_pc (v : Byte) : (s.setST v).pc = s.pc := rfl
@[simp] theorem State.setST_I (v : Byte) : (s.setST v).I = s.I := rfl
@[simp] theorem State.setST_DT (v : Byte) : (s.setST v).DT = s.DT := rfl
@[simp] theorem State.setST_ST (v : Byte) : (s.setST v).ST = v := rfl
@[simp] theorem State.setST_depth (v : Byte) : (s.setST v).depth = s.depth := rfl
@[simp] theorem State.setST_stack (v : Byte) : (s.setST v).stack = s.stack := rfl
@[simp] theorem State.setST_display (v : Byte) : (s.setST v).display = s.display := rfl
@[simp] theorem State.setST_keys (v : Byte) : (s.setST v).keys = s.keys := rfl
@[simp] theorem State.setST_awaiting (v : Byte) : (s.setST v).awaiting = s.awaiting := rfl
@[simp] theorem State.setST_target (v : Byte) : (s.setST v).target = s.target := rfl
@[simp] theorem State.setST_opt (v : Byte) : (s.setST v).opt = s.opt := rfl
@[simp] theorem State.setST_halted (v : Byte) : (s.setST v).halted = s.halted := rfl
@[simp] theorem State.setST_faultCode (v : Byte) : (s.setST v).faultCode = s.faultCode := rfl
@[simp] theorem State.setST_memory (v : Byte) : (s.setST v).memory = s.memory := rfl
@[simp] theorem State.setST_rnd (v : Byte) : (s.setST v).rnd = s.rnd := rfl
@[simp] theorem State.setST_rndIndex (v : Byte) : (s.setST v).rndIndex = s.rndIndex := rfl
@[simp] theorem State.setST_commands (v : Byte) : (s.setST v).commands = s.commands := rfl
@[simp] theorem State.setST_output (v : Byte) : (s.setST v).output = s.output := rfl

/-! `State.setWait` -/
@[simp] theorem State.setWait_V (a : Bool) (r : RegNum) : (s.setWait a r).V = s.V := rfl
@[simp] theorem State.setWait_pc (a : Bool) (r : RegNum) : (s.setWait a r).pc = s.pc := rfl
@[simp] theorem State.setWait_I (a : Bool) (r : RegNum) : (s.setWait a r).I = s.I := rfl
@[simp] theorem State.setWait_DT (a : Bool) (r : RegNum) : (s.setWait a r).DT = s.DT := rfl
@[simp] theorem State.setWait_ST (a : Bool) (r : RegNum) : (s.setWait a r).ST = s.ST := rfl
@[simp] theorem State.setWait_depth (a : Bool) (r : RegNum) : (s.setWait a r).depth = s.depth := rfl
@[simp] theorem State.setWait_stack (a : Bool) (r : RegNum) : (s.setWait a r).stack = s.stack := rfl
@[simp] theorem State.setWait_display (a : Bool) (r : RegNum) : (s.setWait a r).display = s.display := rfl
@[simp] theorem State.setWait_keys (a : Bool) (r : RegNum) : (s.setWait a r).keys = s.keys := rfl
@[simp] theorem State.setWait_awaiting (a : Bool) (r : RegNum) : (s.setWait a r).awaiting = a := rfl
@[simp] theorem State.setWait_target (a : Bool) (r : RegNum) : (s.setWait a r).target = r := rfl
@[simp] theorem State.setWait_opt (a : Bool) (r : RegNum) : (s.setWait a r).opt = s.opt := rfl
@[simp] theorem State.setWait_halted (a : Bool) (r : RegNum) : (s.setWait a r).halted = s.halted := rfl
@[simp] theorem State.setWait_faultCode (a : Bool) (r : RegNum) : (s.setWait a r).faultCode = s.faultCode := rfl
@[simp] theorem State.setWait_memory (a : Bool) (r : RegNum) : (s.setWait a r).memory = s.memory := rfl
@[simp] theorem State.setWait_rnd (a : Bool) (r : RegNum) : (s.setWait a r).rnd = s.rnd := rfl
@[simp] theorem State.setWait_rndIndex (a : Bool) (r : RegNum) : (s.setWait a r).rndIndex = s.rndIndex := rfl
@[simp] theorem State.setWait_commands (a : Bool) (r : RegNum) : (s.setWait a r).commands = s.commands := rfl
@[simp] theorem State.setWait_output (a : Bool) (r : RegNum) : (s.setWait a r).output = s.output := rfl

/-! `State.setMemory` -/
@[simp] theorem State.setMemory_V (m : Memory) : (s.setMemory m).V = s.V := rfl
@[simp] theorem State.setMemory_pc (m : Memory) : (s.setMemory m).pc = s.pc := rfl
@[simp] theorem State.setMemory_I (m : Memory) : (s.setMemory m).I = s.I := rfl
@[simp] theorem State.setMemory_DT (m : Memory) : (s.setMemory m).DT = s.DT := rfl
@[simp] theorem State.setMemory_ST (m : Memory) : (s.setMemory m).ST = s.ST := rfl
@[simp] theorem State.setMemory_depth (m : Memory) : (s.setMemory m).depth = s.depth := rfl
@[simp] theorem State.setMemory_stack (m : Memory) : (s.setMemory m).stack = s.stack := rfl
@[simp] theorem State.setMemory_display (m : Memory) : (s.setMemory m).display = s.display := rfl
@[simp] theorem State.setMemory_keys (m : Memory) : (s.setMemory m).keys = s.keys := rfl
@[simp] theorem State.setMemory_awaiting (m : Memory) : (s.setMemory m).awaiting = s.awaiting := rfl
@[simp] theorem State.setMemory_target (m : Memory) : (s.setMemory m).target = s.target := rfl
@[simp] theorem State.setMemory_opt (m : Memory) : (s.setMemory m).opt = s.opt := rfl
@[simp] theorem State.setMemory_halted (m : Memory) : (s.setMemory m).halted = s.halted := rfl
@[simp] theorem State.setMemory_faultCode (m : Memory) : (s.setMemory m).faultCode = s.faultCode := rfl
@[simp] theorem State.setMemory_memory (m : Memory) : (s.setMemory m).memory = m := rfl
@[simp] theorem State.setMemory_rnd (m : Memory) : (s.setMemory m).rnd = s.rnd := rfl
@[simp] theorem State.setMemory_rndIndex (m : Memory) : (s.setMemory m).rndIndex = s.rndIndex := rfl
@[simp] theorem State.setMemory_commands (m : Memory) : (s.setMemory m).commands = s.commands := rfl
@[simp] theorem State.setMemory_output (m : Memory) : (s.setMemory m).output = s.output := rfl

/-! `State.setDisplay` -/
@[simp] theorem State.setDisplay_V (d : Display) : (s.setDisplay d).V = s.V := rfl
@[simp] theorem State.setDisplay_pc (d : Display) : (s.setDisplay d).pc = s.pc := rfl
@[simp] theorem State.setDisplay_I (d : Display) : (s.setDisplay d).I = s.I := rfl
@[simp] theorem State.setDisplay_DT (d : Display) : (s.setDisplay d).DT = s.DT := rfl
@[simp] theorem State.setDisplay_ST (d : Display) : (s.setDisplay d).ST = s.ST := rfl
@[simp] theorem State.setDisplay_depth (d : Display) : (s.setDisplay d).depth = s.depth := rfl
@[simp] theorem State.setDisplay_stack (d : Display) : (s.setDisplay d).stack = s.stack := rfl
@[simp] theorem State.setDisplay_display (d : Display) : (s.setDisplay d).display = d := rfl
@[simp] theorem State.setDisplay_keys (d : Display) : (s.setDisplay d).keys = s.keys := rfl
@[simp] theorem State.setDisplay_awaiting (d : Display) : (s.setDisplay d).awaiting = s.awaiting := rfl
@[simp] theorem State.setDisplay_target (d : Display) : (s.setDisplay d).target = s.target := rfl
@[simp] theorem State.setDisplay_opt (d : Display) : (s.setDisplay d).opt = s.opt := rfl
@[simp] theorem State.setDisplay_halted (d : Display) : (s.setDisplay d).halted = s.halted := rfl
@[simp] theorem State.setDisplay_faultCode (d : Display) : (s.setDisplay d).faultCode = s.faultCode := rfl
@[simp] theorem State.setDisplay_memory (d : Display) : (s.setDisplay d).memory = s.memory := rfl
@[simp] theorem State.setDisplay_rnd (d : Display) : (s.setDisplay d).rnd = s.rnd := rfl
@[simp] theorem State.setDisplay_rndIndex (d : Display) : (s.setDisplay d).rndIndex = s.rndIndex := rfl
@[simp] theorem State.setDisplay_commands (d : Display) : (s.setDisplay d).commands = s.commands := rfl
@[simp] theorem State.setDisplay_output (d : Display) : (s.setDisplay d).output = s.output := rfl

/-! `State.report` -/
@[simp] theorem State.report_V (r : Report) : (s.report r).V = s.V := rfl
@[simp] theorem State.report_pc (r : Report) : (s.report r).pc = s.pc := rfl
@[simp] theorem State.report_I (r : Report) : (s.report r).I = s.I := rfl
@[simp] theorem State.report_DT (r : Report) : (s.report r).DT = s.DT := rfl
@[simp] theorem State.report_ST (r : Report) : (s.report r).ST = s.ST := rfl
@[simp] theorem State.report_depth (r : Report) : (s.report r).depth = s.depth := rfl
@[simp] theorem State.report_stack (r : Report) : (s.report r).stack = s.stack := rfl
@[simp] theorem State.report_display (r : Report) : (s.report r).display = s.display := rfl
@[simp] theorem State.report_keys (r : Report) : (s.report r).keys = s.keys := rfl
@[simp] theorem State.report_awaiting (r : Report) : (s.report r).awaiting = s.awaiting := rfl
@[simp] theorem State.report_target (r : Report) : (s.report r).target = s.target := rfl
@[simp] theorem State.report_opt (r : Report) : (s.report r).opt = s.opt := rfl
@[simp] theorem State.report_halted (r : Report) : (s.report r).halted = s.halted := rfl
@[simp] theorem State.report_faultCode (r : Report) : (s.report r).faultCode = s.faultCode := rfl
@[simp] theorem State.report_memory (r : Report) : (s.report r).memory = s.memory := rfl
@[simp] theorem State.report_rnd (r : Report) : (s.report r).rnd = s.rnd := rfl
@[simp] theorem State.report_rndIndex (r : Report) : (s.report r).rndIndex = s.rndIndex := rfl
@[simp] theorem State.report_commands (r : Report) : (s.report r).commands = s.commands := rfl
@[simp] theorem State.report_output (r : Report) : (s.report r).output = s.output ++ [r] := rfl

/-! `State.diag` -/
@[simp] theorem State.diag_V (d : Diagnostic) (w : Word) : (s.diag d w).V = s.V := rfl
@[simp] theorem State.diag_pc (d : Diagnostic) (w : Word) : (s.diag d w).pc = s.pc := rfl
@[simp] theorem State.diag_I (d : Diagnostic) (w : Word) : (s.diag d w).I = s.I := rfl
@[simp] theorem State.diag_DT (d : Diagnostic) (w : Word) : (s.diag d w).DT = s.DT := rfl
@[simp] theorem State.diag_ST (d : Diagnostic) (w : Word) : (s.diag d w).ST = s.ST := rfl
@[simp] theorem State.diag_depth (d : Diagnostic) (w : Word) : (s.diag d w).depth = s.depth := rfl
@[simp] theorem State.diag_stack (d : Diagnostic) (w : Word) : (s.diag d w).stack = s.stack := rfl
@[simp] theorem State.diag_display (d : Diagnostic) (w : Word) : (s.diag d w).display = s.display := rfl
@[simp] theorem State.diag_keys (d : Diagnostic) (w : Word) : (s.diag d w).keys = s.keys := rfl
@[simp] theorem State.diag_awaiting (d : Diagnostic) (w : Word) : (s.diag d w).awaiting = s.awaiting := rfl
@[simp] theorem State.diag_target (d : Diagnostic) (w : Word) : (s.diag d w).target = s.target := rfl
@[simp] theorem State.diag_opt (d : Diagnostic) (w : Word) : (s.diag d w).opt = s.opt := rfl
@[simp] theorem State.diag_halted (d : Diagnostic) (w : Word) : (s.diag d w).halted = s.halted := rfl
@[simp] theorem State.diag_faultCode (d : Diagnostic) (w : Word) : (s.diag d w).faultCode = s.faultCode := rfl
@[simp] theorem State.diag_memory (d : Diagnostic) (w : Word) : (s.diag d w).memory = s.memory := rfl
@[simp] theorem State.diag_rnd (d : Diagnostic) (w : Word) : (s.diag d w).rnd = s.rnd := rfl
@[simp] theorem State.diag_rndIndex (d : Diagnostic) (w : Word) : (s.diag d w).rndIndex = s.rndIndex := rfl
@[simp] theorem State.diag_commands (d : Diagnostic) (w : Word) : (s.diag d w).commands = s.commands := rfl
@[simp] theorem State.diag_output (d : Diagnostic) (w : Word) : (s.diag d w).output = s.output ++ [.diagnostic d w] := rfl

/-! `State.raise` -/
@[simp] theorem State.raise_V (f : FatalFault) (n : Nat) : (s.raise f n).V = s.V := rfl
@[simp] theorem State.raise_pc (f : FatalFault) (n : Nat) : (s.raise f n).pc = s.pc := rfl
@[simp] theorem State.raise_I (f : FatalFault) (n : Nat) : (s.raise f n).I = s.I := rfl
@[simp] theorem State.raise_DT (f : FatalFault) (n : Nat) : (s.raise f n).DT = s.DT := rfl
@[simp] theorem State.raise_ST (f : FatalFault) (n : Nat) : (s.raise f n).ST = s.ST := rfl
@[simp] theorem State.raise_depth (f : FatalFault) (n : Nat) : (s.raise f n).depth = s.depth := rfl
@[simp] theorem State.raise_stack (f : FatalFault) (n : Nat) : (s.raise f n).stack = s.stack := rfl
@[simp] theorem State.raise_display (f : FatalFault) (n : Nat) : (s.raise f n).display = s.display := rfl
@[simp] theorem State.raise_keys (f : FatalFault) (n : Nat) : (s.raise f n).keys = s.keys := rfl
@[simp] theorem State.raise_awaiting (f : FatalFault) (n : Nat) : (s.raise f n).awaiting = s.awaiting := rfl
@[simp] theorem State.raise_target (f : FatalFault) (n : Nat) : (s.raise f n).target = s.target := rfl
@[simp] theorem State.raise_opt (f : FatalFault) (n : Nat) : (s.raise f n).opt = s.opt := rfl
@[simp] theorem State.raise_halted (f : FatalFault) (n : Nat) : (s.raise f n).halted = true := rfl
@[simp] theorem State.raise_faultCode (f : FatalFault) (n : Nat) : (s.raise f n).faultCode = f.code := rfl
@[simp] theorem State.raise_memory (f : FatalFault) (n : Nat) : (s.raise f n).memory = s.memory := rfl
@[simp] theorem State.raise_rnd (f : FatalFault) (n : Nat) : (s.raise f n).rnd = s.rnd := rfl
@[simp] theorem State.raise_rndIndex (f : FatalFault) (n : Nat) : (s.raise f n).rndIndex = s.rndIndex := rfl
@[simp] theorem State.raise_commands (f : FatalFault) (n : Nat) : (s.raise f n).commands = s.commands := rfl
@[simp] theorem State.raise_output (f : FatalFault) (n : Nat) : (s.raise f n).output = s.output ++ [.fault f n] := rfl

/-! `State.setRnd` -/
@[simp] theorem State.setRnd_V (b : Byte) : (s.setRnd b).V = s.V := rfl
@[simp] theorem State.setRnd_pc (b : Byte) : (s.setRnd b).pc = s.pc := rfl
@[simp] theorem State.setRnd_I (b : Byte) : (s.setRnd b).I = s.I := rfl
@[simp] theorem State.setRnd_DT (b : Byte) : (s.setRnd b).DT = s.DT := rfl
@[simp] theorem State.setRnd_ST (b : Byte) : (s.setRnd b).ST = s.ST := rfl
@[simp] theorem State.setRnd_depth (b : Byte) : (s.setRnd b).depth = s.depth := rfl
@[simp] theorem State.setRnd_stack (b : Byte) : (s.setRnd b).stack = s.stack := rfl
@[simp] theorem State.setRnd_display (b : Byte) : (s.setRnd b).display = s.display := rfl
@[simp] theorem State.setRnd_keys (b : Byte) : (s.setRnd b).keys = s.keys := rfl
@[simp] theorem State.setRnd_awaiting (b : Byte) : (s.setRnd b).awaiting = s.awaiting := rfl
@[simp] theorem State.setRnd_target (b : Byte) : (s.setRnd b).target = s.target := rfl
@[simp] theorem State.setRnd_opt (b : Byte) : (s.setRnd b).opt = s.opt := rfl
@[simp] theorem State.setRnd_halted (b : Byte) : (s.setRnd b).halted = s.halted := rfl
@[simp] theorem State.setRnd_faultCode (b : Byte) : (s.setRnd b).faultCode = s.faultCode := rfl
@[simp] theorem State.setRnd_memory (b : Byte) : (s.setRnd b).memory = s.memory := rfl
@[simp] theorem State.setRnd_rnd (b : Byte) : (s.setRnd b).rnd = b := rfl
@[simp] theorem State.setRnd_rndIndex (b : Byte) : (s.setRnd b).rndIndex = s.rndIndex := rfl
@[simp] theorem State.setRnd_commands (b : Byte) : (s.setRnd b).commands = s.commands := rfl
@[simp] theorem State.setRnd_output (b : Byte) : (s.setRnd b).output = s.output := rfl

/-! `State.drawRnd` -/
@[simp] theorem State.drawRnd_V : (s.drawRnd).V = s.V := rfl
@[simp] theorem State.drawRnd_pc : (s.drawRnd).pc = s.pc := rfl
@[simp] theorem State.drawRnd_I : (s.drawRnd).I = s.I := rfl
@[simp] theorem State.drawRnd_DT : (s.drawRnd).DT = s.DT := rfl
@[simp] theorem State.drawRnd_ST : (s.drawRnd).ST = s.ST := rfl
@[simp] theorem State.drawRnd_depth : (s.drawRnd).depth = s.depth := rfl
@[simp] theorem State.drawRnd_stack : (s.drawRnd).stack = s.stack := rfl
@[simp] theorem State.drawRnd_display : (s.drawRnd).display = s.display := rfl
@[simp] theorem State.drawRnd_keys : (s.drawRnd).keys = s.keys := rfl
@[simp] theorem State.drawRnd_awaiting : (s.drawRnd).awaiting = s.awaiting := rfl
@[simp] theorem State.drawRnd_target : (s.drawRnd).target = s.target := rfl
@[simp] theorem State.drawRnd_opt : (s.drawRnd).opt = s.opt := rfl
@[simp] theorem State.drawRnd_halted : (s.drawRnd).halted = s.halted := rfl
@[simp] theorem State.drawRnd_faultCode : (s.drawRnd).faultCode = s.faultCode := rfl
@[simp] theorem State.drawRnd_memory : (s.drawRnd).memory = s.memory := rfl
@[simp] theorem State.drawRnd_rnd : (s.drawRnd).rnd = Config.entropy s.rndIndex := rfl
@[simp] theorem State.drawRnd_rndIndex : (s.drawRnd).rndIndex = s.rndIndex + 1 := rfl
@[simp] theorem State.drawRnd_commands : (s.drawRnd).commands = s.commands := rfl
@[simp] theorem State.drawRnd_output : (s.drawRnd).output = s.output := rfl

/-! `State.tick` -/
@[simp] theorem State.tick_V : (s.tick).V = s.V := rfl
@[simp] theorem State.tick_pc : (s.tick).pc = s.pc := rfl
@[simp] theorem State.tick_I : (s.tick).I = s.I := rfl
@[simp] theorem State.tick_DT : (s.tick).DT = if s.DT = 0 then 0 else s.DT - 1 := rfl
@[simp] theorem State.tick_ST : (s.tick).ST = if s.ST = 0 then 0 else s.ST - 1 := rfl
@[simp] theorem State.tick_depth : (s.tick).depth = s.depth := rfl
@[simp] theorem State.tick_stack : (s.tick).stack = s.stack := rfl
@[simp] theorem State.tick_display : (s.tick).display = s.display := rfl
@[simp] theorem State.tick_keys : (s.tick).keys = s.keys := rfl
@[simp] theorem State.tick_awaiting : (s.tick).awaiting = s.awaiting := rfl
@[simp] theorem State.tick_target : (s.tick).target = s.target := rfl
@[simp] theorem State.tick_opt : (s.tick).opt = s.opt := rfl
@[simp] theorem State.tick_halted : (s.tick).halted = s.halted := rfl
@[simp] theorem State.tick_faultCode : (s.tick).faultCode = s.faultCode := rfl
@[simp] theorem State.tick_memory : (s.tick).memory = s.memory := rfl
@[simp] theorem State.tick_rnd : (s.tick).rnd = s.rnd := rfl
@[simp] theorem State.tick_rndIndex : (s.tick).rndIndex = s.rndIndex := rfl
@[simp] theorem State.tick_commands : (s.tick).commands = s.commands := rfl
@[simp] theorem State.tick_output : (s.tick).output = s.output := rfl

/-! `State.setKeys` -/
@[simp] theorem State.setKeys_V (k : BitVec 16) : (s.setKeys k).V = s.V := rfl
@[simp] theorem State.setKeys_pc (k : BitVec 16) : (s.setKeys k).pc = s.pc := rfl
@[simp] theorem State.setKeys_I (k : BitVec 16) : (s.setKeys k).I = s.I := rfl
@[simp] theorem State.setKeys_DT (k : BitVec 16) : (s.setKeys k).DT = s.DT := rfl
@[simp] theorem State.setKeys_ST (k : BitVec 16) : (s.setKeys k).ST = s.ST := rfl
@[simp] theorem State.setKeys_depth (k : BitVec 16) : (s.setKeys k).depth = s.depth := rfl
@[simp] theorem State.setKeys_stack (k : BitVec 16) : (s.setKeys k).stack = s.stack := rfl
@[simp] theorem State.setKeys_display (k : BitVec 16) : (s.setKeys k).display = s.display := rfl
@[simp] theorem State.setKeys_keys (k : BitVec 16) : (s.setKeys k).keys = k := rfl
@[simp] theorem State.setKeys_awaiting (k : BitVec 16) : (s.setKeys k).awaiting = s.awaiting := rfl
@[simp] theorem State.setKeys_target (k : BitVec 16) : (s.setKeys k).target = s.target := rfl
@[simp] theorem State.setKeys_opt (k : BitVec 16) : (s.setKeys k).opt = s.opt := rfl
@[simp] theorem State.setKeys_halted (k : BitVec 16) : (s.setKeys k).halted = s.halted := rfl
@[simp] theorem State.setKeys_faultCode (k : BitVec 16) : (s.setKeys k).faultCode = s.faultCode := rfl
@[simp] theorem State.setKeys_memory (k : BitVec 16) : (s.setKeys k).memory = s.memory := rfl
@[simp] theorem State.setKeys_rnd (k : BitVec 16) : (s.setKeys k).rnd = s.rnd := rfl
@[simp] theorem State.setKeys_rndIndex (k : BitVec 16) : (s.setKeys k).rndIndex = s.rndIndex := rfl
@[simp] theorem State.setKeys_commands (k : BitVec 16) : (s.setKeys k).commands = s.commands := rfl
@[simp] theorem State.setKeys_output (k : BitVec 16) : (s.setKeys k).output = s.output := rfl

/-! `State.setRegFlag` -/
@[simp] theorem State.setRegFlag_V (r : RegNum) (b : Byte) (f : Bool) : (s.setRegFlag r b f).V = (s.V.write r b).write VF (flagByte f) := rfl
@[simp] theorem State.setRegFlag_pc (r : RegNum) (b : Byte) (f : Bool) : (s.setRegFlag r b f).pc = s.pc := rfl
@[simp] theorem State.setRegFlag_I (r : RegNum) (b : Byte) (f : Bool) : (s.setRegFlag r b f).I = s.I := rfl
@[simp] theorem State.setRegFlag_DT (r : RegNum) (b : Byte) (f : Bool) : (s.setRegFlag r b f).DT = s.DT := rfl
@[simp] theorem State.setRegFlag_ST (r : RegNum) (b : Byte) (f : Bool) : (s.setRegFlag r b f).ST = s.ST := rfl
@[simp] theorem State.setRegFlag_depth (r : RegNum) (b : Byte) (f : Bool) : (s.setRegFlag r b f).depth = s.depth := rfl
@[simp] theorem State.setRegFlag_stack (r : RegNum) (b : Byte) (f : Bool) : (s.setRegFlag r b f).stack = s.stack := rfl
@[simp] theorem State.setRegFlag_display (r : RegNum) (b : Byte) (f : Bool) : (s.setRegFlag r b f).display = s.display := rfl
@[simp] theorem State.setRegFlag_keys (r : RegNum) (b : Byte) (f : Bool) : (s.setRegFlag r b f).keys = s.keys := rfl
@[simp] theorem State.setRegFlag_awaiting (r : RegNum) (b : Byte) (f : Bool) : (s.setRegFlag r b f).awaiting = s.awaiting := rfl
@[simp] theorem State.setRegFlag_target (r : RegNum) (b : Byte) (f : Bool) : (s.setRegFlag r b f).target = s.target := rfl
@[simp] theorem State.setRegFlag_opt (r : RegNum) (b : Byte) (f : Bool) : (s.setRegFlag r b f).opt = s.opt := rfl
@[simp] theorem State.setRegFlag_halted (r : RegNum) (b : Byte) (f : Bool) : (s.setRegFlag r b f).halted = s.halted := rfl
@[simp] theorem State.setRegFlag_faultCode (r : RegNum) (b : Byte) (f : Bool) : (s.setRegFlag r b f).faultCode = s.faultCode := rfl
@[simp] theorem State.setRegFlag_memory (r : RegNum) (b : Byte) (f : Bool) : (s.setRegFlag r b f).memory = s.memory := rfl
@[simp] theorem State.setRegFlag_rnd (r : RegNum) (b : Byte) (f : Bool) : (s.setRegFlag r b f).rnd = s.rnd := rfl
@[simp] theorem State.setRegFlag_rndIndex (r : RegNum) (b : Byte) (f : Bool) : (s.setRegFlag r b f).rndIndex = s.rndIndex := rfl
@[simp] theorem State.setRegFlag_commands (r : RegNum) (b : Byte) (f : Bool) : (s.setRegFlag r b f).commands = s.commands := rfl
@[simp] theorem State.setRegFlag_output (r : RegNum) (b : Byte) (f : Bool) : (s.setRegFlag r b f).output = s.output := rfl

/-! `State.construct` -/
@[simp] theorem State.construct_V (f r i : List Byte) (a b : Bool) : (s.construct f r i a b).V = Vector.replicate 16 0 := rfl
@[simp] theorem State.construct_pc (f r i : List Byte) (a b : Bool) : (s.construct f r i a b).pc = 0x200 := rfl
@[simp] theorem State.construct_I (f r i : List Byte) (a b : Bool) : (s.construct f r i a b).I = 0 := rfl
@[simp] theorem State.construct_DT (f r i : List Byte) (a b : Bool) : (s.construct f r i a b).DT = 0 := rfl
@[simp] theorem State.construct_ST (f r i : List Byte) (a b : Bool) : (s.construct f r i a b).ST = 0 := rfl
@[simp] theorem State.construct_depth (f r i : List Byte) (a b : Bool) : (s.construct f r i a b).depth = 0 := rfl
@[simp] theorem State.construct_stack (f r i : List Byte) (a b : Bool) : (s.construct f r i a b).stack = Vector.replicate 16 0 := rfl
@[simp] theorem State.construct_display (f r i : List Byte) (a b : Bool) : (s.construct f r i a b).display = Display.blank := rfl
@[simp] theorem State.construct_keys (f r i : List Byte) (a b : Bool) : (s.construct f r i a b).keys = 0 := rfl
@[simp] theorem State.construct_awaiting (f r i : List Byte) (a b : Bool) : (s.construct f r i a b).awaiting = false := rfl
@[simp] theorem State.construct_target (f r i : List Byte) (a b : Bool) : (s.construct f r i a b).target = 0 := rfl
@[simp] theorem State.construct_opt (f r i : List Byte) (a b : Bool) : (s.construct f r i a b).opt = ⟨a, b⟩ := rfl
@[simp] theorem State.construct_halted (f r i : List Byte) (a b : Bool) : (s.construct f r i a b).halted = false := rfl
@[simp] theorem State.construct_faultCode (f r i : List Byte) (a b : Bool) : (s.construct f r i a b).faultCode = 0 := rfl
@[simp] theorem State.construct_memory (f r i : List Byte) (a b : Bool) : (s.construct f r i a b).memory = Memory.boot f r i := rfl
@[simp] theorem State.construct_rnd (f r i : List Byte) (a b : Bool) : (s.construct f r i a b).rnd = s.rnd := rfl
@[simp] theorem State.construct_rndIndex (f r i : List Byte) (a b : Bool) : (s.construct f r i a b).rndIndex = s.rndIndex := rfl
@[simp] theorem State.construct_commands (f r i : List Byte) (a b : Bool) : (s.construct f r i a b).commands = s.commands := rfl
@[simp] theorem State.construct_output (f r i : List Byte) (a b : Bool) : (s.construct f r i a b).output = s.output := rfl

/-! `State.saveAdvance` -/
@[simp] theorem State.saveAdvance_V (x : RegNum) : (s.saveAdvance x).V = s.V := rfl
@[simp] theorem State.saveAdvance_pc (x : RegNum) : (s.saveAdvance x).pc = s.pc := rfl
@[simp] theorem State.saveAdvance_I (x : RegNum) : (s.saveAdvance x).I = if s.opt.savingIncreasesRegI then s.I + BitVec.ofNat 16 (x.toNat + 1) else s.I := rfl
@[simp] theorem State.saveAdvance_DT (x : RegNum) : (s.saveAdvance x).DT = s.DT := rfl
@[simp] theorem State.saveAdvance_ST (x : RegNum) : (s.saveAdvance x).ST = s.ST := rfl
@[simp] theorem State.saveAdvance_depth (x : RegNum) : (s.saveAdvance x).depth = s.depth := rfl
@[simp] theorem State.saveAdvance_stack (x : RegNum) : (s.saveAdvance x).stack = s.stack := rfl
@[simp] theorem State.saveAdvance_display (x : RegNum) : (s.saveAdvance x).display = s.display := rfl
@[simp] theorem State.saveAdvance_keys (x : RegNum) : (s.saveAdvance x).keys = s.keys := rfl
@[simp] theorem State.saveAdvance_awaiting (x : RegNum) : (s.saveAdvance x).awaiting = s.awaiting := rfl
@[simp] theorem State.saveAdvance_target (x : RegNum) : (s.saveAdvance x).target = s.target := rfl
@[simp] theorem State.saveAdvance_opt (x : RegNum) : (s.saveAdvance x).opt = s.opt := rfl
@[simp] theorem State.saveAdvance_halted (x : RegNum) : (s.saveAdvance x).halted = s.halted := rfl
@[simp] theorem State.saveAdvance_faultCode (x : RegNum) : (s.saveAdvance x).faultCode = s.faultCode := rfl
@[simp] theorem State.saveAdvance_memory (x : RegNum) : (s.saveAdvance x).memory = s.memory := rfl
@[simp] theorem State.saveAdvance_rnd (x : RegNum) : (s.saveAdvance x).rnd = s.rnd := rfl
@[simp] theorem State.saveAdvance_rndIndex (x : RegNum) : (s.saveAdvance x).rndIndex = s.rndIndex := rfl
@[simp] theorem State.saveAdvance_commands (x : RegNum) : (s.saveAdvance x).commands = s.commands := rfl
@[simp] theorem State.saveAdvance_output (x : RegNum) : (s.saveAdvance x).output = s.output := rfl

/-! `State.warnLowTarget` -/
@[simp] theorem State.warnLowTarget_V (a : Addr) : (s.warnLowTarget a).V = s.V := by unfold State.warnLowTarget; split <;> rfl
@[simp] theorem State.warnLowTarget_pc (a : Addr) : (s.warnLowTarget a).pc = s.pc := by unfold State.warnLowTarget; split <;> rfl
@[simp] theorem State.warnLowTarget_I (a : Addr) : (s.warnLowTarget a).I = s.I := by unfold State.warnLowTarget; split <;> rfl
@[simp] theorem State.warnLowTarget_DT (a : Addr) : (s.warnLowTarget a).DT = s.DT := by unfold State.warnLowTarget; split <;> rfl
@[simp] theorem State.warnLowTarget_ST (a : Addr) : (s.warnLowTarget a).ST = s.ST := by unfold State.warnLowTarget; split <;> rfl
@[simp] theorem State.warnLowTarget_depth (a : Addr) : (s.warnLowTarget a).depth = s.depth := by unfold State.warnLowTarget; split <;> rfl
@[simp] theorem State.warnLowTarget_stack (a : Addr) : (s.warnLowTarget a).stack = s.stack := by unfold State.warnLowTarget; split <;> rfl
@[simp] theorem State.warnLowTarget_display (a : Addr) : (s.warnLowTarget a).display = s.display := by unfold State.warnLowTarget; split <;> rfl
@[simp] theorem State.warnLowTarget_keys (a : Addr) : (s.warnLowTarget a).keys = s.keys := by unfold State.warnLowTarget; split <;> rfl
@[simp] theorem State.warnLowTarget_awaiting (a : Addr) : (s.warnLowTarget a).awaiting = s.awaiting := by unfold State.warnLowTarget; split <;> rfl
@[simp] theorem State.warnLowTarget_target (a : Addr) : (s.warnLowTarget a).target = s.target := by unfold State.warnLowTarget; split <;> rfl
@[simp] theorem State.warnLowTarget_opt (a : Addr) : (s.warnLowTarget a).opt = s.opt := by unfold State.warnLowTarget; split <;> rfl
@[simp] theorem State.warnLowTarget_halted (a : Addr) : (s.warnLowTarget a).halted = s.halted := by unfold State.warnLowTarget; split <;> rfl
@[simp] theorem State.warnLowTarget_faultCode (a : Addr) : (s.warnLowTarget a).faultCode = s.faultCode := by unfold State.warnLowTarget; split <;> rfl
@[simp] theorem State.warnLowTarget_memory (a : Addr) : (s.warnLowTarget a).memory = s.memory := by unfold State.warnLowTarget; split <;> rfl
@[simp] theorem State.warnLowTarget_rnd (a : Addr) : (s.warnLowTarget a).rnd = s.rnd := by unfold State.warnLowTarget; split <;> rfl
@[simp] theorem State.warnLowTarget_rndIndex (a : Addr) : (s.warnLowTarget a).rndIndex = s.rndIndex := by unfold State.warnLowTarget; split <;> rfl
@[simp] theorem State.warnLowTarget_commands (a : Addr) : (s.warnLowTarget a).commands = s.commands := by unfold State.warnLowTarget; split <;> rfl
@[simp] theorem State.warnLowTarget_output (a : Addr) : (s.warnLowTarget a).output = if a.toNat < 0x200 then s.output ++ [.diagnostic .lowTarget (a.zeroExtend 16)] else s.output := by unfold State.warnLowTarget; split <;> rfl

end Sys2Proof.Machine
end

