-- ==== Sys2Proof/Laws/Memory.lean ====
section
/-! SUPPORT. Registers and memory: a read after a write, what a write leaves alone, and that every memory operation
keeps the canonical form. -/

namespace Sys2Proof.Machine

/-! ### Registers -/

theorem Regs.read_write_self (V : Regs) (r : RegNum) (b : Byte) : (V.write r b).read r = b := by
  simp [Regs.read, Regs.write]

theorem Regs.read_write_of_ne (V : Regs) {r q : RegNum} (b : Byte) (h : q ≠ r) : (V.write r b).read q = V.read q := by
  have h' : r.toNat ≠ q.toNat := fun e => h (BitVec.eq_of_toNat_eq e.symm)
  simp [Regs.read, Regs.write, h']

theorem Regs.read_write (V : Regs) (r q : RegNum) (b : Byte) :
    (V.write r b).read q = if q = r then b else V.read q := by
  split
  · subst q; exact V.read_write_self r b
  · exact V.read_write_of_ne b ‹_›

/-- Two register files are equal when every register reads the same. -/
theorem Regs.ext_read {V W : Regs} (h : ∀ r, V.read r = W.read r) : V = W := by
  apply Vector.ext
  intro k hk
  have := h (BitVec.ofNat 4 k)
  simpa [Regs.read, Nat.mod_eq_of_lt hk] using this

/-- Writing back what a register holds changes nothing. -/
theorem Regs.write_read_self (V : Regs) (r : RegNum) : V.write r (V.read r) = V := by
  apply Regs.ext_read
  intro q
  rw [Regs.read_write]
  split
  · subst q; rfl
  · rfl

@[simp] theorem State.reg_eq (s : State) (r : RegNum) : s.reg r = s.V.read r := rfl

/-- Loading a block: the registers below `count` come from memory, the others are as they were. -/
theorem Regs.read_loadFrom (m : Memory) (base : Nat) (V : Regs) (q : RegNum) :
    ∀ {count : Nat}, count ≤ 16 →
      (Regs.loadFrom m base count V).read q = if q.toNat < count then Memory.read m (base + q.toNat) else V.read q
  | 0, _ => by simp [Regs.loadFrom]
  | k + 1, hk => by
    have ih := Regs.read_loadFrom m base V q (count := k) (by omega)
    rw [Regs.loadFrom, Regs.read_write, ih]
    have hkq : q = BitVec.ofNat 4 k ↔ q.toNat = k := by
      constructor
      · intro h; rw [h, BitVec.toNat_ofNat]; exact Nat.mod_eq_of_lt (by omega)
      · intro h; rw [← h, BitVec.ofNat_toNat]; simp
    by_cases h : q.toNat = k
    · simp [hkq.mpr h, BitVec.toNat_ofNat, Nat.mod_eq_of_lt (show k < 16 by omega)]
    · rw [if_neg (mt hkq.mp h)]
      by_cases h' : q.toNat < k
      · rw [if_pos h', if_pos (by omega)]
      · rw [if_neg h', if_neg (by omega)]

/-! ### The canonical form -/

theorem Memory.wfFrom_cons {lo k : Nat} {b : Byte} {m : Memory} :
    Memory.wfFrom lo ((k, b) :: m) = true ↔
      lo ≤ k ∧ k < Config.memorySize ∧ b ≠ Memory.unlisted k ∧ Memory.wfFrom (k + 1) m = true := by
  simp [Memory.wfFrom, and_assoc]

theorem Memory.wfFrom_mono {lo lo' : Nat} {m : Memory} (h : lo' ≤ lo) (w : Memory.wfFrom lo m = true) :
    Memory.wfFrom lo' m = true := by
  cases m with
  | nil => rfl
  | cons e m =>
    obtain ⟨k, b⟩ := e
    rw [Memory.wfFrom_cons] at w ⊢
    exact ⟨by omega, w.2⟩

/-- An address below every listed one reads as unlisted. -/
theorem Memory.read_below {a : Nat} : ∀ {m : Memory} {lo : Nat}, Memory.wfFrom lo m = true → a < lo →
    Memory.read m a = Memory.unlisted a
  | [], _, _, _ => rfl
  | (k, b) :: m, lo, w, h => by
    rw [Memory.wfFrom_cons] at w
    rw [Memory.read, if_neg (by omega)]
    exact Memory.read_below w.2.2.2 (by omega)

theorem Memory.read_cons_self {a : Nat} {b : Byte} {m : Memory} (w : Memory.wfFrom (a + 1) m = true) :
    Memory.read (Memory.cons a b m) a = b := by
  unfold Memory.cons
  split
  · rw [Memory.read_below w (by omega), ‹b = _›]
  · simp [Memory.read]

theorem Memory.read_cons_of_ne {a c : Nat} (b : Byte) (m : Memory) (h : c ≠ a) :
    Memory.read (Memory.cons a b m) c = Memory.read m c := by
  unfold Memory.cons
  split
  · rfl
  · rw [Memory.read, if_neg h]

theorem Memory.wfFrom_cons' {lo a : Nat} {b : Byte} {m : Memory} (h : lo ≤ a) (ha : a < Config.memorySize)
    (w : Memory.wfFrom (a + 1) m = true) : Memory.wfFrom lo (Memory.cons a b m) = true := by
  unfold Memory.cons
  split
  · exact Memory.wfFrom_mono (by omega) w
  · exact Memory.wfFrom_cons.mpr ⟨h, ha, ‹_›, w⟩

/-! ### Reading after a write -/

/-- A write leaves every other address alone. -/
theorem Memory.read_write_of_ne {a c : Nat} (b : Byte) (h : c ≠ a) : ∀ m : Memory,
    Memory.read (Memory.write m a b) c = Memory.read m c
  | [] => Memory.read_cons_of_ne b [] h
  | (k, d) :: m => by
    unfold Memory.write
    split
    · exact Memory.read_cons_of_ne b _ h
    · split
      · rename_i _ hk
        subst hk
        rw [Memory.read_cons_of_ne b m h, Memory.read, if_neg h]
      · rw [Memory.read, Memory.read, Memory.read_write_of_ne b h m]

theorem Memory.read_write_self_from {a : Nat} (b : Byte) : ∀ {m : Memory} {lo : Nat}, Memory.wfFrom lo m = true →
    Memory.read (Memory.write m a b) a = b
  | [], _, _ => Memory.read_cons_self rfl
  | (k, d) :: m, lo, w => by
    rw [Memory.wfFrom_cons] at w
    unfold Memory.write
    split
    · exact Memory.read_cons_self (Memory.wfFrom_cons.mpr ⟨by omega, w.2⟩)
    · split
      · rename_i _ hk
        subst hk
        exact Memory.read_cons_self w.2.2.2
      · rw [Memory.read, if_neg ‹_›]
        exact Memory.read_write_self_from b w.2.2.2

/-- A read of the address just written gives the byte written. -/
theorem Memory.read_write_self {m : Memory} (w : Memory.wf m = true) (a : Nat) (b : Byte) :
    Memory.read (Memory.write m a b) a = b := Memory.read_write_self_from b w

theorem Memory.wfFrom_write {a : Nat} (b : Byte) (ha : a < Config.memorySize) : ∀ {m : Memory} {lo : Nat},
    lo ≤ a → Memory.wfFrom lo m = true → Memory.wfFrom lo (Memory.write m a b) = true
  | [], _, h, _ => Memory.wfFrom_cons' h ha rfl
  | (k, d) :: m, lo, h, w => by
    rw [Memory.wfFrom_cons] at w
    unfold Memory.write
    split
    · exact Memory.wfFrom_cons' h ha (Memory.wfFrom_cons.mpr ⟨by omega, w.2⟩)
    · split
      · rename_i _ hk
        subst hk
        exact Memory.wfFrom_cons' h ha w.2.2.2
      · exact Memory.wfFrom_cons.mpr ⟨w.1, w.2.1, w.2.2.1, Memory.wfFrom_write b ha (by omega) w.2.2.2⟩

/-- A write keeps the canonical form. -/
theorem Memory.wf_write {m : Memory} (w : Memory.wf m = true) {a : Nat} (ha : a < Config.memorySize) (b : Byte) :
    Memory.wf (Memory.write m a b) = true := Memory.wfFrom_write b ha (by omega) w

/-! ### Blocks -/

/-- Storing registers keeps the canonical form. -/
theorem Memory.wf_storeRegs (V : Regs) {base : Nat} {m : Memory} (w : Memory.wf m = true) :
    ∀ {count : Nat}, base + count ≤ Config.memorySize → Memory.wf (Memory.storeRegs V base count m) = true
  | 0, _ => w
  | k + 1, h => Memory.wf_write (Memory.wf_storeRegs V w (count := k) (by omega)) (by omega) _

/-- Storing registers leaves every address outside the block alone. -/
theorem Memory.read_storeRegs_outside (V : Regs) (base : Nat) (m : Memory) {a : Nat} :
    ∀ {count : Nat}, a < base ∨ base + count ≤ a → Memory.read (Memory.storeRegs V base count m) a = Memory.read m a
  | 0, _ => rfl
  | k + 1, h => by
    rw [Memory.storeRegs, Memory.read_write_of_ne _ (by omega)]
    exact Memory.read_storeRegs_outside V base m (by omega)

/-- Storing registers puts `V[k]` at `base + k`. -/
theorem Memory.read_storeRegs_inside (V : Regs) {base : Nat} {m : Memory} (w : Memory.wf m = true) {k : Nat} :
    ∀ {count : Nat}, base + count ≤ Config.memorySize → k < count →
      Memory.read (Memory.storeRegs V base count m) (base + k) = V.read (BitVec.ofNat 4 k)
  | 0, _, h => absurd h (by omega)
  | j + 1, hc, h => by
    rw [Memory.storeRegs]
    by_cases e : k = j
    · subst e
      exact Memory.read_write_self (Memory.wf_storeRegs V w (by omega)) _ _
    · rw [Memory.read_write_of_ne _ (by omega)]
      exact Memory.read_storeRegs_inside V w (by omega) (by omega)

/-- Storing the decimal digits keeps the canonical form. -/
theorem Memory.wf_storeDigits (v : Byte) {base : Nat} {m : Memory} (w : Memory.wf m = true)
    (h : base + 2 < Config.memorySize) : Memory.wf (Memory.storeDigits v base m) = true :=
  Memory.wf_write (Memory.wf_write (Memory.wf_write w (by omega) _) (by omega) _) h _

/-- Storing the decimal digits leaves every other address alone. -/
theorem Memory.read_storeDigits_outside (v : Byte) (base : Nat) (m : Memory) {a : Nat} (h : a < base ∨ base + 3 ≤ a) :
    Memory.read (Memory.storeDigits v base m) a = Memory.read m a := by
  rw [Memory.storeDigits, Memory.read_write_of_ne _ (by omega), Memory.read_write_of_ne _ (by omega),
    Memory.read_write_of_ne _ (by omega)]

/-- The three digits, hundreds at the lowest address. -/
theorem Memory.read_storeDigits (v : Byte) {base : Nat} {m : Memory} (w : Memory.wf m = true)
    (h : base + 2 < Config.memorySize) :
    Memory.read (Memory.storeDigits v base m) base = BitVec.ofNat 8 (v.toNat / 100) ∧
    Memory.read (Memory.storeDigits v base m) (base + 1) = BitVec.ofNat 8 (v.toNat / 10 % 10) ∧
    Memory.read (Memory.storeDigits v base m) (base + 2) = BitVec.ofNat 8 (v.toNat % 10) := by
  have w1 := Memory.wf_write w (show base < Config.memorySize by omega) (BitVec.ofNat 8 (v.toNat / 100))
  have w2 := Memory.wf_write w1 (show base + 1 < Config.memorySize by omega) (BitVec.ofNat 8 (v.toNat / 10 % 10))
  refine ⟨?_, ?_, Memory.read_write_self w2 _ _⟩
  · rw [Memory.storeDigits, Memory.read_write_of_ne _ (by omega), Memory.read_write_of_ne _ (by omega)]
    exact Memory.read_write_self w _ _
  · rw [Memory.storeDigits, Memory.read_write_of_ne _ (by omega)]
    exact Memory.read_write_self w1 _ _

/-! ### The memory `RESET` leaves -/

theorem Memory.wfFrom_ofBytes {above : Memory} : ∀ {base : Nat} {bs : List Byte},
    base + bs.length ≤ Config.memorySize → Memory.wfFrom (base + bs.length) above = true →
      Memory.wfFrom base (Memory.ofBytes base bs above) = true
  | _, [], _, w => w
  | base, b :: bs, h, w => by
    simp only [List.length_cons] at h w
    exact Memory.wfFrom_cons' (Nat.le_refl _) (by omega)
      (Memory.wfFrom_ofBytes (by omega) (by rwa [show base + 1 + bs.length = base + (bs.length + 1) by omega]))

/-- The bytes are where they were put. -/
theorem Memory.read_ofBytes_inside {above : Memory} : ∀ {base : Nat} {bs : List Byte} {k : Nat},
    base + bs.length ≤ Config.memorySize → Memory.wfFrom (base + bs.length) above = true → k < bs.length →
      Memory.read (Memory.ofBytes base bs above) (base + k) = bs.getD k 0
  | _, [], _, _, _, hk => absurd hk (by simp)
  | base, b :: bs, k, h, w, hk => by
    simp only [List.length_cons] at h w hk
    have w' : Memory.wfFrom (base + 1 + bs.length) above = true := by
      rwa [show base + 1 + bs.length = base + (bs.length + 1) by omega]
    cases k with
    | zero => exact Memory.read_cons_self (Memory.wfFrom_ofBytes (by omega) w')
    | succ k =>
      rw [Memory.ofBytes, Memory.read_cons_of_ne _ _ (by omega), show base + (k + 1) = base + 1 + k by omega,
        Memory.read_ofBytes_inside (by omega) w' (by omega)]
      simp

/-- Above the bytes lies the memory they were put before. -/
theorem Memory.read_ofBytes_above {above : Memory} {a : Nat} : ∀ {base : Nat} {bs : List Byte},
    base + bs.length ≤ a → Memory.read (Memory.ofBytes base bs above) a = Memory.read above a
  | _, [], _ => rfl
  | base, b :: bs, h => by
    simp only [List.length_cons] at h
    rw [Memory.ofBytes, Memory.read_cons_of_ne _ _ (by omega)]
    exact Memory.read_ofBytes_above (by omega)

theorem Memory.wfFrom_boot {fontBytes reserved image : List Byte} (hf : fontBytes.length = 80)
    (hr : reserved.length = 432) (hi : image.length = Config.imageSize) :
    Memory.wf (Memory.boot fontBytes reserved image) = true := by
  simp only [Config.imageSize] at hi
  apply Memory.wfFrom_ofBytes (by simp [hf, Config.memorySize])
  apply Memory.wfFrom_mono (lo := 0x050) (by omega)
  apply Memory.wfFrom_ofBytes (by simp [hr, Config.memorySize])
  apply Memory.wfFrom_mono (lo := 0x200) (by omega)
  apply Memory.wfFrom_ofBytes (by simp [hi, Config.memorySize])
  rfl

theorem font_length : font.length = 80 := by decide

theorem reservedInit_length : reservedInit.length = 432 := List.length_replicate

end Sys2Proof.Machine
end

