-- ==== Sys2Proof/Laws/Display.lean ====
section
/-! SUPPORT. The display: what a toggle, a sprite row and a whole sprite do to each pixel and to the collision flag
(43_display.md R116, R117). -/

namespace Sys2Proof.Machine

/-- A toggle flips its own pixel and no other. -/
theorem Display.pixel_toggle (d : Display) (px qx : Fin 64) (py qy : Fin 32) :
    Display.pixel (Display.toggle d px py) qx qy = (Display.pixel d qx qy ^^ decide (qx = px ∧ qy = py)) := by
  unfold Display.pixel Display.toggle
  rw [Vector.getElem_set]
  by_cases hy : qy = py
  · subst hy
    simp only [if_pos, BitVec.getLsbD_xor, BitVec.getLsbD_twoPow, and_true, Fin.ext_iff]
    have := qx.isLt
    by_cases hx : qx.val = px.val
    · simp [hx]
    · simp [hx, Ne.symm hx]
  · have h : py.val ≠ qy.val := fun e => hy (Fin.ext e.symm)
    simp [h, hy]

@[simp] theorem Display.pixel_blank (px : Fin 64) (py : Fin 32) : Display.pixel Display.blank px py = false := by
  simp [Display.pixel, Display.blank]

/-- Two displays are equal when every pixel is. -/
theorem Display.ext_pixel {d e : Display} (h : ∀ px py, Display.pixel d px py = Display.pixel e px py) : d = e := by
  apply Vector.ext
  intro k hk
  apply BitVec.eq_of_getLsbD_eq
  intro i hi
  exact h ⟨i, hi⟩ ⟨k, hk⟩

/-- Sprite row `b` with its column 0 at column `cx`, cut after `cols` columns, sets column `qx`. -/
def rowSets (b : Byte) (cx cols : Nat) (qx : Fin 64) : Bool :=
  decide (∃ col < cols, b.getLsbD (7 - col) = true ∧ qx = Fin.ofNat 64 (cx + col))

theorem rowSets_succ (b : Byte) (cx cols : Nat) (qx : Fin 64) :
    rowSets b cx (cols + 1) qx =
      (rowSets b cx cols qx || (b.getLsbD (7 - cols) && decide (qx = Fin.ofNat 64 (cx + cols)))) := by
  rw [Bool.eq_iff_iff]
  simp only [rowSets, decide_eq_true_eq, Bool.or_eq_true, Bool.and_eq_true]
  constructor
  · rintro ⟨col, hc, hb, rfl⟩
    rcases Nat.lt_succ_iff_lt_or_eq.mp hc with h | rfl
    · exact .inl ⟨col, h, hb, rfl⟩
    · exact .inr ⟨hb, rfl⟩
  · rintro (⟨col, hc, hb, rfl⟩ | ⟨hb, rfl⟩)
    · exact ⟨col, by omega, hb, rfl⟩
    · exact ⟨cols, by omega, hb, rfl⟩

/-- The columns of one sprite row are distinct: the next column is not one already visited. -/
theorem rowSets_next (b : Byte) (cx cols : Nat) (h : cols < 64) :
    rowSets b cx cols (Fin.ofNat 64 (cx + cols)) = false := by
  simp only [rowSets, decide_eq_false_iff_not]
  rintro ⟨col, hc, -, e⟩
  simp only [Fin.ext_iff, Fin.val_ofNat] at e
  omega

/-- One sprite row: each pixel of its display row is XORed with the sprite's, every other row is left alone. -/
theorem Drawing.pixel_row (b : Byte) (cx : Nat) (py : Fin 32) (c : Drawing) (qx : Fin 64) (qy : Fin 32) :
    ∀ {cols : Nat}, cols ≤ 8 → Display.pixel (Drawing.row b cx py cols c).screen qx qy =
      (Display.pixel c.screen qx qy ^^ (decide (qy = py) && rowSets b cx cols qx))
  | 0, _ => by simp [Drawing.row, rowSets]
  | col + 1, h => by
    have ih := Drawing.pixel_row b cx py c qx qy (cols := col) (by omega)
    rw [Drawing.row, rowSets_succ]
    by_cases hb : b.getLsbD (7 - col) = true
    · have hn := rowSets_next b cx col (by omega)
      rw [if_pos hb, Drawing.dot, Display.pixel_toggle, ih, hb, Bool.true_and]
      generalize Fin.ofNat 64 (cx + col) = p at hn ⊢
      by_cases hy : qy = py
      · by_cases hx : qx = p
        · subst hx; simp [hn, hy]
        · simp [hx]
      · simp [hy]
    · simp only [Bool.not_eq_true] at hb
      rw [if_neg (by simp [hb]), ih, hb]; simp

/-- One sprite row: the collision flag is set when a pixel it sets was set before. -/
theorem Drawing.collision_row (b : Byte) (cx : Nat) (py : Fin 32) (c : Drawing) :
    ∀ {cols : Nat}, cols ≤ 8 → ((Drawing.row b cx py cols c).collision = true ↔
      c.collision = true ∨ ∃ qx, Display.pixel c.screen qx py = true ∧ rowSets b cx cols qx = true)
  | 0, _ => by simp [Drawing.row, rowSets]
  | col + 1, h => by
    have ih := Drawing.collision_row b cx py c (cols := col) (by omega)
    have hp := Drawing.pixel_row b cx py c (Fin.ofNat 64 (cx + col)) py (cols := col) (by omega)
    rw [rowSets_next b cx col (by omega), Bool.and_false, Bool.xor_false] at hp
    simp only [rowSets_succ, Bool.or_eq_true, Bool.and_eq_true, decide_eq_true_eq]
    by_cases hb : b.getLsbD (7 - col) = true
    · rw [Drawing.row, if_pos hb, Drawing.dot, hp, Bool.or_eq_true, ih]
      constructor
      · rintro ((hc | ⟨qx, hq, hs⟩) | hq)
        · exact .inl hc
        · exact .inr ⟨qx, hq, .inl hs⟩
        · exact .inr ⟨_, hq, .inr ⟨hb, rfl⟩⟩
      · rintro (hc | ⟨qx, hq, hs | ⟨-, rfl⟩⟩)
        · exact .inl (.inl hc)
        · exact .inl (.inr ⟨qx, hq, hs⟩)
        · exact .inr hq
    · rw [Drawing.row, if_neg hb, ih]
      constructor
      · rintro (hc | ⟨qx, hq, hs⟩)
        · exact .inl hc
        · exact .inr ⟨qx, hq, .inl hs⟩
      · rintro (hc | ⟨qx, hq, hs | ⟨hs, -⟩⟩)
        · exact .inl hc
        · exact .inr ⟨qx, hq, hs⟩
        · exact absurd hs hb

/-- The first `n` rows of the sprite at `base`, its corner at (`cx`, `cy`), set the pixel (`qx`, `qy`). -/
def spriteSets (m : Memory) (base cx cy n : Nat) (qx : Fin 64) (qy : Fin 32) : Bool :=
  decide (∃ row < n, qy = Fin.ofNat 32 (cy + row) ∧ rowSets (Memory.read m (base + row)) cx 8 qx = true)

theorem spriteSets_succ (m : Memory) (base cx cy n : Nat) (qx : Fin 64) (qy : Fin 32) :
    spriteSets m base cx cy (n + 1) qx qy = (spriteSets m base cx cy n qx qy ||
      (decide (qy = Fin.ofNat 32 (cy + n)) && rowSets (Memory.read m (base + n)) cx 8 qx)) := by
  rw [Bool.eq_iff_iff]
  simp only [spriteSets, decide_eq_true_eq, Bool.or_eq_true, Bool.and_eq_true]
  constructor
  · rintro ⟨row, hr, rfl, hs⟩
    rcases Nat.lt_succ_iff_lt_or_eq.mp hr with h | rfl
    · exact .inl ⟨row, h, rfl, hs⟩
    · exact .inr ⟨rfl, hs⟩
  · rintro (⟨row, hr, hy, hs⟩ | ⟨hy, hs⟩)
    · exact ⟨row, by omega, hy, hs⟩
    · exact ⟨n, by omega, hy, hs⟩

/-- The rows of a sprite are distinct: the next display row is not one already visited. -/
theorem spriteSets_next (m : Memory) (base cx cy n : Nat) (h : n < 32) (qx : Fin 64) :
    spriteSets m base cx cy n qx (Fin.ofNat 32 (cy + n)) = false := by
  simp only [spriteSets, decide_eq_false_iff_not]
  rintro ⟨row, hr, e, -⟩
  simp only [Fin.ext_iff, Fin.val_ofNat] at e
  omega

/-- A whole sprite: each pixel is XORed with the sprite's (R117). -/
theorem Drawing.pixel_rows (m : Memory) (base cx cy : Nat) (c : Drawing) (qx : Fin 64) (qy : Fin 32) :
    ∀ {n : Nat}, n ≤ 15 → Display.pixel (Drawing.rows m base cx cy n c).screen qx qy =
      (Display.pixel c.screen qx qy ^^ spriteSets m base cx cy n qx qy)
  | 0, _ => by simp [Drawing.rows, spriteSets]
  | n + 1, h => by
    have ih := Drawing.pixel_rows m base cx cy c qx qy (n := n) (by omega)
    rw [Drawing.rows, Drawing.pixel_row _ _ _ _ _ _ (Nat.le_refl 8), ih, spriteSets_succ]
    have hn := spriteSets_next m base cx cy n (by omega) qx
    generalize Fin.ofNat 32 (cy + n) = p at hn ⊢
    by_cases hy : qy = p
    · subst hy; simp [hn]
    · simp [hy]

/-- A whole sprite: the collision flag is set when a pixel it sets was set before (R117). -/
theorem Drawing.collision_rows (m : Memory) (base cx cy : Nat) (c : Drawing) :
    ∀ {n : Nat}, n ≤ 15 → ((Drawing.rows m base cx cy n c).collision = true ↔
      c.collision = true ∨
        ∃ qx qy, Display.pixel c.screen qx qy = true ∧ spriteSets m base cx cy n qx qy = true)
  | 0, _ => by simp [Drawing.rows, spriteSets]
  | n + 1, h => by
    have ih := Drawing.collision_rows m base cx cy c (n := n) (by omega)
    have hp : ∀ qx, Display.pixel (Drawing.rows m base cx cy n c).screen qx (Fin.ofNat 32 (cy + n)) =
        Display.pixel c.screen qx (Fin.ofNat 32 (cy + n)) := fun qx => by
      rw [Drawing.pixel_rows m base cx cy c qx _ (by omega), spriteSets_next m base cx cy n (by omega), Bool.xor_false]
    rw [Drawing.rows, Drawing.collision_row _ _ _ _ (Nat.le_refl 8), ih]
    simp only [hp, spriteSets_succ, Bool.or_eq_true, Bool.and_eq_true, decide_eq_true_eq]
    constructor
    · rintro ((hc | ⟨qx, qy, hq, hs⟩) | ⟨qx, hq, hs⟩)
      · exact .inl hc
      · exact .inr ⟨qx, qy, hq, .inl hs⟩
      · exact .inr ⟨qx, _, hq, .inr ⟨rfl, hs⟩⟩
    · rintro (hc | ⟨qx, qy, hq, hs | ⟨rfl, hs⟩⟩)
      · exact .inl (.inl hc)
      · exact .inl (.inr ⟨qx, qy, hq, hs⟩)
      · exact .inr ⟨qx, hq, hs⟩

end Sys2Proof.Machine
end

