-- ==== Sys2Proof/Laws/PerInstr.lean ====
section
/-! SUPPORT. Per instruction: its encoding is selected by its own row of the opcode table (30_encoding.md R66). -/

namespace Sys2Proof.Laws.EncodesRow

/-- The word of an instruction matches the mask and value of the instruction's own row. -/
abbrev Statement (i : Instr) : Prop := i.row.selects (encode i) = true

theorem selects_addr (c : Nibble) (a : Addr) (m : String := "") :
    OpcodeRow.selects ⟨m, 0xF000#16, c ++ 0#12⟩ (c ++ a : BitVec (4 + 12)) = true := by
  simp [OpcodeRow.selects, and_majorMask]

theorem selects_regByte (c : Nibble) (x : RegNum) (k : Byte) (m : String := "") :
    OpcodeRow.selects ⟨m, 0xF000#16, c ++ 0#12⟩ (c ++ x ++ k : BitVec (4 + 4 + 8)) = true := by
  simp [OpcodeRow.selects, and_majorMask]

theorem selects_drw (x y : RegNum) (n : Nibble) (m : String := "") :
    OpcodeRow.selects ⟨m, 0xF000#16, 0xD000#16⟩ (0xD#4 ++ x ++ y ++ n : BitVec (4 + 4 + 4 + 4)) = true := by
  simp [OpcodeRow.selects, and_majorMask]

theorem selects_nibbles (c : Nibble) (x y : RegNum) (n : Nibble) (m : String := "") :
    OpcodeRow.selects ⟨m, 0xF00F#16, c ++ 0#4 ++ 0#4 ++ n⟩ (c ++ x ++ y ++ n : BitVec (4 + 4 + 4 + 4)) = true := by
  simp [OpcodeRow.selects, and_nibbleMask]

theorem selects_sub (c : Nibble) (x : RegNum) (k : Byte) (m : String := "") :
    OpcodeRow.selects ⟨m, 0xF0FF#16, c ++ 0#4 ++ k⟩ (c ++ x ++ k : BitVec (4 + 4 + 8)) = true := by
  simp [OpcodeRow.selects, and_byteMask]

theorem cls : Statement (.cls) := by decide
theorem ret : Statement (.ret) := by decide
theorem jp (nnn : Addr) : Statement (.jp nnn) := selects_addr _ _
theorem call (nnn : Addr) : Statement (.call nnn) := selects_addr _ _
theorem seImm (x : RegNum) (kk : Byte) : Statement (.seImm x kk) := selects_regByte _ _ _
theorem sneImm (x : RegNum) (kk : Byte) : Statement (.sneImm x kk) := selects_regByte _ _ _
theorem seReg (x y : RegNum) : Statement (.seReg x y) := selects_nibbles _ _ _ _
theorem sneReg (x y : RegNum) : Statement (.sneReg x y) := selects_nibbles _ _ _ _
theorem ldImm (x : RegNum) (kk : Byte) : Statement (.ldImm x kk) := selects_regByte _ _ _
theorem addImm (x : RegNum) (kk : Byte) : Statement (.addImm x kk) := selects_regByte _ _ _
theorem ldReg (x y : RegNum) : Statement (.ldReg x y) := selects_nibbles _ _ _ _
theorem orReg (x y : RegNum) : Statement (.orReg x y) := selects_nibbles _ _ _ _
theorem andReg (x y : RegNum) : Statement (.andReg x y) := selects_nibbles _ _ _ _
theorem xorReg (x y : RegNum) : Statement (.xorReg x y) := selects_nibbles _ _ _ _
theorem addReg (x y : RegNum) : Statement (.addReg x y) := selects_nibbles _ _ _ _
theorem subReg (x y : RegNum) : Statement (.subReg x y) := selects_nibbles _ _ _ _
theorem shrReg (x y : RegNum) : Statement (.shrReg x y) := selects_nibbles _ _ _ _
theorem subnReg (x y : RegNum) : Statement (.subnReg x y) := selects_nibbles _ _ _ _
theorem shlReg (x y : RegNum) : Statement (.shlReg x y) := selects_nibbles _ _ _ _
theorem ldI (nnn : Addr) : Statement (.ldI nnn) := selects_addr _ _
theorem jpV0 (nnn : Addr) : Statement (.jpV0 nnn) := selects_addr _ _
theorem rnd (x : RegNum) (kk : Byte) : Statement (.rnd x kk) := selects_regByte _ _ _
theorem drw (x y : RegNum) (n : Nibble) : Statement (.drw x y n) := selects_drw _ _ _
theorem skp (x : RegNum) : Statement (.skp x) := selects_sub _ _ _
theorem sknp (x : RegNum) : Statement (.sknp x) := selects_sub _ _ _
theorem ldVxDT (x : RegNum) : Statement (.ldVxDT x) := selects_sub _ _ _
theorem ldDTVx (x : RegNum) : Statement (.ldDTVx x) := selects_sub _ _ _
theorem ldSTVx (x : RegNum) : Statement (.ldSTVx x) := selects_sub _ _ _
theorem ldVxK (x : RegNum) : Statement (.ldVxK x) := selects_sub _ _ _
theorem addI (x : RegNum) : Statement (.addI x) := selects_sub _ _ _
theorem ldF (x : RegNum) : Statement (.ldF x) := selects_sub _ _ _
theorem ldB (x : RegNum) : Statement (.ldB x) := selects_sub _ _ _
theorem storeRegs (x : RegNum) : Statement (.storeRegs x) := selects_sub _ _ _
theorem loadRegs (x : RegNum) : Statement (.loadRegs x) := selects_sub _ _ _

end Sys2Proof.Laws.EncodesRow
end

