-- ==== Sys2Proof/Laws/Step.lean ====
section
/-! SUPPORT. What each shared operation and the step can do, said once. -/

namespace Sys2Proof.Machine

/-- A push that succeeds: there was room, and the slot at `depth` and `depth` are all that changes (10_state.md R16). -/
theorem State.push?_eq_some {v : Word} {s t : State} (h : s.push? v = some t) :
    ∃ hd : s.depth.val < 16,
      t = { s with stack := s.stack.set s.depth.val v hd, depth := ⟨s.depth.val + 1, by omega⟩ } := by
  unfold State.push? at h
  split at h
  · exact ⟨‹_›, (Option.some.inj h).symm⟩
  · cases h

/-- A push fails exactly when 16 addresses are saved. -/
theorem State.push?_eq_none {v : Word} {s : State} : s.push? v = none ↔ s.depth.val = 16 := by
  have := s.depth.isLt
  unfold State.push?
  split <;> simp <;> omega

/-- A pop that succeeds: something was saved, and `depth` is all that changes (10_state.md R16). -/
theorem State.pop?_eq_some {v : Word} {s t : State} (h : s.pop? = some (v, t)) :
    ∃ _hd : s.depth.val ≠ 0,
      v = s.stack[s.depth.val - 1]'(by have := s.depth.isLt; omega) ∧
      t = { s with depth := ⟨s.depth.val - 1, by have := s.depth.isLt; omega⟩ } := by
  unfold State.pop? at h
  split at h
  · cases h
  · obtain ⟨rfl, rfl⟩ := Prod.mk.inj (Option.some.inj h)
    exact ⟨‹_›, rfl, rfl⟩

/-- A pop fails exactly when nothing is saved. -/
theorem State.pop?_eq_none {s : State} : s.pop? = none ↔ s.depth.val = 0 := by
  unfold State.pop?
  split <;> simp_all

/-- An `I`-relative access: the fault, or every address is inside memory and the effect happens. -/
theorem State.accessing_cases (count : Nat) (effect : State → State) (s : State) :
    (s.accessFaults count = true ∧
      s.accessing count effect = .next (s.raise .addressOutOfRange (s.lastAccess count))) ∨
    (s.accessFaults count = false ∧ (count = 0 ∨ s.I.toNat + count ≤ Config.memorySize) ∧
      s.accessing count effect = .next (effect s)) := by
  unfold State.accessing
  split
  · exact .inl ⟨‹_›, rfl⟩
  · rename_i h
    refine .inr ⟨by simpa using h, ?_, rfl⟩
    by_cases hc : count = 0
    · exact .inl hc
    · right
      have h' : ¬ 0xFFF < s.I.toNat + (count - 1) := fun hf =>
        h (by rw [State.accessFaults, decide_eq_true hc, Bool.true_and]; exact decide_eq_true hf)
      simp only [Config.memorySize]
      omega

/-- A key test: the fault above 15, or the effect with the flag. -/
theorem State.withKey_cases (x : RegNum) (effect : Bool → State → State) (s : State) :
    (15 < (s.reg x).toNat ∧ s.withKey x effect = .next (s.raise .keyIndexOutOfRange (s.reg x).toNat)) ∨
    ((s.reg x).toNat ≤ 15 ∧ s.withKey x effect = .next (effect (s.key (s.reg x).toNat) s)) := by
  unfold State.withKey
  split
  · exact .inl ⟨‹_›, rfl⟩
  · exact .inr ⟨by omega, rfl⟩

/-- The lowest key down is down, is a key, and no lower one is down (44_keys_timers.md R124). -/
theorem firstKey_eq_some {keys : BitVec 16} {k : Nat} (h : firstKey keys = some k) :
    k < 16 ∧ keys.getLsbD k = true ∧ ∀ j < k, keys.getLsbD j = false := by
  rw [firstKey, List.find?_range_eq_some] at h
  exact ⟨List.mem_range.mp h.2.1, h.1, fun j hj => by simpa using h.2.2 j hj⟩

theorem firstKey_eq_none {keys : BitVec 16} : firstKey keys = none ↔ keys = 0 := by
  simp only [firstKey, List.find?_eq_none, List.mem_range, Bool.not_eq_true]
  constructor
  · intro h
    apply BitVec.eq_of_getLsbD_eq
    intro i hi
    simpa using h i hi
  · rintro rfl j -
    simp

/-- The wait-state cycle: no key down and nothing changes, or the lowest key down is stored and the wait ends. -/
theorem State.waitCycle_cases (s : State) :
    (s.keys = 0 ∧ s.waitCycle = s) ∨
    ∃ k, k < 16 ∧ s.key k = true ∧ (∀ j < k, s.key j = false) ∧
      s.waitCycle = (s.setReg s.target (BitVec.ofNat 8 k)).setWait false s.target := by
  unfold State.waitCycle
  split
  · rename_i k h
    obtain ⟨hk, hd, hl⟩ := firstKey_eq_some h
    exact .inr ⟨k, hk, hd, hl, rfl⟩
  · rename_i h
    exact .inl ⟨firstKey_eq_none.mp h, rfl⟩

/-- One `CYCLE` is exactly one of five things (30_encoding.md R64, R67). -/
theorem cycle_cases (supply : State → State) (s : State) :
    (s.halted = true ∧ cycle supply s = .next s) ∨
    (s.halted = false ∧ s.awaiting = true ∧ cycle supply s = .next s.waitCycle) ∨
    (s.halted = false ∧ s.awaiting = false ∧ Config.lastFetch < s.pc.toNat ∧
      cycle supply s = .next (s.raise .pcOutOfRange s.pc.toNat)) ∨
    (s.halted = false ∧ s.awaiting = false ∧ s.pc.toNat ≤ Config.lastFetch ∧ decodeWord s.fetchWord = none ∧
      cycle supply s = .next (s.unrecognized s.fetchWord)) ∨
    (s.halted = false ∧ s.awaiting = false ∧ s.pc.toNat ≤ Config.lastFetch ∧ ∃ i, decodeWord s.fetchWord = some i ∧
      cycle supply s = exec i (if drawsRandom i then supply s else s)) := by
  unfold cycle
  split
  · exact .inl ⟨‹_›, rfl⟩
  · rename_i hh
    simp only [Bool.not_eq_true] at hh
    split
    · exact .inr (.inl ⟨hh, ‹_›, rfl⟩)
    · rename_i ha
      simp only [Bool.not_eq_true] at ha
      split
      · exact .inr (.inr (.inl ⟨hh, ha, ‹_›, rfl⟩))
      · unfold execute
        split
        · rename_i i hi
          exact .inr (.inr (.inr (.inr ⟨hh, ha, by omega, i, hi, rfl⟩)))
        · rename_i hi
          exact .inr (.inr (.inr (.inl ⟨hh, ha, by omega, hi, rfl⟩)))

/-- A step is a free `CYCLE`, or the oldest command of the host. -/
theorem step_cases (s : State) :
    (s.commands = [] ∧ step s = cycle State.drawRnd s) ∨
    ∃ c rest, s.commands = c :: rest ∧ step s = perform c { s with commands := rest } := by
  unfold step performNext
  split
  · exact .inl ⟨‹_›, rfl⟩
  · exact .inr ⟨_, _, ‹_›, rfl⟩

/-- When the next command is a `CYCLE`, the step is that `CYCLE`, with a supply that touches the random operand alone. -/
theorem step_of_cycleNext {s : State} {rest : List Command} (h : s.CycleNext rest) :
    ∃ supply : State → State, (∀ u, ∃ b n, supply u = { u with rnd := b, rndIndex := n }) ∧
      step s = cycle supply { s with commands := rest } := by
  rcases h with ⟨hc, rfl⟩ | ⟨r, hc⟩
  · refine ⟨State.drawRnd, fun u => ⟨_, _, rfl⟩, ?_⟩
    show performNext s = _
    rw [show ({ s with commands := [] } : State) = s by rw [← hc]]
    simp [performNext, hc]
  · refine ⟨State.setRnd r, fun u => ⟨r, u.rndIndex, rfl⟩, ?_⟩
    show performNext s = _
    simp [performNext, hc, perform]

/-- A `CYCLE` that fetches runs the word at `pc`. -/
theorem runsWord_of_fetching {s : State} {rest : List Command} (h : s.Fetching rest) : s.RunsWord rest s.fetchWord := by
  obtain ⟨hc, hh, ha, hp⟩ := h
  obtain ⟨supply, hs, e⟩ := step_of_cycleNext hc
  have e' : step s = execute supply s.fetchWord { s with commands := rest } := by
    rw [e, cycle, if_neg (by simp [hh]), if_neg (by simp [ha]), if_neg (by exact Nat.not_lt.mpr hp)]
    rfl
  refine ⟨fun i hi hr => ?_, fun x kk hi => ?_, fun hn => ?_⟩
  · rw [e', execute, hi]
    cases i <;> first | rfl | exact absurd rfl (hr _ _)
  · obtain ⟨b, n, hb⟩ := hs { s with commands := rest }
    exact ⟨b, n, by rw [e', execute, hi, ← hb]; rfl⟩
  · rw [e', execute, hn]; rfl

/-- What memory holds after the store of `Fx55`. -/
theorem State.read_storeRegs {s : State} (w : Memory.wf s.memory = true) {x : RegNum}
    (h : s.I.toNat + (x.toNat + 1) ≤ Config.memorySize) (a : Nat) :
    Memory.read (Memory.storeRegs s.V s.I.toNat (x.toNat + 1) s.memory) a = s.byteAfterStore x a := by
  unfold State.byteAfterStore
  split
  · obtain ⟨k, rfl⟩ := Nat.exists_eq_add_of_le (show s.I.toNat ≤ a by omega)
    rw [Memory.read_storeRegs_inside s.V w h (by omega), Nat.add_sub_cancel_left]
    rfl
  · exact Memory.read_storeRegs_outside s.V _ _ (by omega)

/-- What memory holds after the store of `Fx33`. -/
theorem State.read_storeDigits {s : State} (w : Memory.wf s.memory = true) (x : RegNum)
    (h : s.I.toNat + 3 ≤ Config.memorySize) (a : Nat) :
    Memory.read (Memory.storeDigits (s.reg x) s.I.toNat s.memory) a = s.byteAfterDigits x a := by
  obtain ⟨h0, h1, h2⟩ := Memory.read_storeDigits (s.reg x) (base := s.I.toNat) w (by omega)
  unfold State.byteAfterDigits
  split
  · subst a; exact h0
  · split
    · subst a; exact h1
    · split
      · subst a; exact h2
      · exact Memory.read_storeDigits_outside _ _ _ (by omega)

end Sys2Proof.Machine
end

