-- ==== Sys2Proof/Tests/Slice0.lean ====
section
/-! SUPPORT. Tests: words written out from the encodings of 30_encoding.md, one-step vectors from 95_test_vectors.md
(S<n>: the source's own example; "2.k #n": vector n of section 2.k), and for every statement with hypotheses a witness
that meets them. -/

namespace Sys2Proof.Tests

open Sys2Proof.Machine

/-- One step gives a next state with the property. -/
def gives (s : State) (p : State → Bool) : Bool :=
  match step s with
  | .next t => p t
  | _ => false

/-- The state after reset, with the word `op` at `pc`, and `V[0] = a`, `V[1] = b`. -/
def two (op : Nat) (a b : Byte) : State := (((State.reset).setReg 0 a).setReg 1 b).withFetchWord 16 op

/-- One byte of memory replaced. -/
def poke (a : Nat) (b : Byte) (s : State) : State := s.setMemory (Memory.write s.memory a b)

/-- The state after reset, with the given commands waiting. -/
def asked (cs : List Command) (s : State) : State := { s with commands := cs }

/-- Both options on. -/
def optioned (s : State) : State := { s with opt := ⟨true, true⟩ }

/-- `n` return addresses 0x0206 saved. -/
def nested (n : Fin 17) (s : State) : State := { s with depth := n, stack := Vector.replicate 16 0x0206 }

/-! ### Decoding and encoding: a word for every constructor, bit by bit from the patterns of 30_encoding.md R62, R66 -/
theorem test_decode_cls :
    decodeTableWord 16 0b0000000011100000 = some .cls ∧ encode .cls = 0b0000000011100000#16 := by decide
theorem test_decode_ret :
    decodeTableWord 16 0b0000000011101110 = some .ret ∧ encode .ret = 0b0000000011101110#16 := by decide
theorem test_decode_jp :
    decodeTableWord 16 0b0001101010111100 = some (.jp 0xABC) ∧ encode (.jp 0xABC) = 0b0001101010111100#16 := by decide
theorem test_decode_call :
    decodeTableWord 16 0b0010001000010000 = some (.call 0x210) ∧ encode (.call 0x210) = 0b0010001000010000#16 := by decide
theorem test_decode_seImm :
    decodeTableWord 16 0b0011001101000010 = some (.seImm 3 0x42) ∧ encode (.seImm 3 0x42) = 0b0011001101000010#16 := by decide
theorem test_decode_sneImm :
    decodeTableWord 16 0b0100001101000011 = some (.sneImm 3 0x43) ∧ encode (.sneImm 3 0x43) = 0b0100001101000011#16 := by decide
theorem test_decode_seReg :
    decodeTableWord 16 0b0101000100100000 = some (.seReg 1 2) ∧ encode (.seReg 1 2) = 0b0101000100100000#16 := by decide
theorem test_decode_sneReg :
    decodeTableWord 16 0b1001000100100000 = some (.sneReg 1 2) ∧ encode (.sneReg 1 2) = 0b1001000100100000#16 := by decide
theorem test_decode_ldImm :
    decodeTableWord 16 0b0110101001111111 = some (.ldImm 0xA 0x7F) ∧ encode (.ldImm 0xA 0x7F) = 0b0110101001111111#16 := by decide
theorem test_decode_addImm :
    decodeTableWord 16 0b0111000011111111 = some (.addImm 0 0xFF) ∧ encode (.addImm 0 0xFF) = 0b0111000011111111#16 := by decide
theorem test_decode_ldReg :
    decodeTableWord 16 0b1000111011110000 = some (.ldReg 0xE 0xF) ∧ encode (.ldReg 0xE 0xF) = 0b1000111011110000#16 := by decide
theorem test_decode_orReg :
    decodeTableWord 16 0b1000000100100001 = some (.orReg 1 2) ∧ encode (.orReg 1 2) = 0b1000000100100001#16 := by decide
theorem test_decode_andReg :
    decodeTableWord 16 0b1000000100100010 = some (.andReg 1 2) ∧ encode (.andReg 1 2) = 0b1000000100100010#16 := by decide
theorem test_decode_xorReg :
    decodeTableWord 16 0b1000000100100011 = some (.xorReg 1 2) ∧ encode (.xorReg 1 2) = 0b1000000100100011#16 := by decide
theorem test_decode_addReg :
    decodeTableWord 16 0b1000111100010100 = some (.addReg 0xF 1) ∧ encode (.addReg 0xF 1) = 0b1000111100010100#16 := by decide
theorem test_decode_subReg :
    decodeTableWord 16 0b1000000011110101 = some (.subReg 0 0xF) ∧ encode (.subReg 0 0xF) = 0b1000000011110101#16 := by decide
theorem test_decode_shrReg :
    decodeTableWord 16 0b1000000100100110 = some (.shrReg 1 2) ∧ encode (.shrReg 1 2) = 0b1000000100100110#16 := by decide
theorem test_decode_subnReg :
    decodeTableWord 16 0b1000001000110111 = some (.subnReg 2 3) ∧ encode (.subnReg 2 3) = 0b1000001000110111#16 := by decide
theorem test_decode_shlReg :
    decodeTableWord 16 0b1000000100101110 = some (.shlReg 1 2) ∧ encode (.shlReg 1 2) = 0b1000000100101110#16 := by decide
theorem test_decode_ldI :
    decodeTableWord 16 0b1010000100100011 = some (.ldI 0x123) ∧ encode (.ldI 0x123) = 0b1010000100100011#16 := by decide
theorem test_decode_jpV0 :
    decodeTableWord 16 0b1011111111111111 = some (.jpV0 0xFFF) ∧ encode (.jpV0 0xFFF) = 0b1011111111111111#16 := by decide
theorem test_decode_rnd :
    decodeTableWord 16 0b1100001100001111 = some (.rnd 3 0x0F) ∧ encode (.rnd 3 0x0F) = 0b1100001100001111#16 := by decide
theorem test_decode_drw :
    decodeTableWord 16 0b1101110100010010 = some (.drw 0xD 1 2) ∧ encode (.drw 0xD 1 2) = 0b1101110100010010#16 := by decide
theorem test_decode_skp :
    decodeTableWord 16 0b1110001010011110 = some (.skp 2) ∧ encode (.skp 2) = 0b1110001010011110#16 := by decide
theorem test_decode_sknp :
    decodeTableWord 16 0b1110001010100001 = some (.sknp 2) ∧ encode (.sknp 2) = 0b1110001010100001#16 := by decide
theorem test_decode_ldVxDT :
    decodeTableWord 16 0b1111000100000111 = some (.ldVxDT 1) ∧ encode (.ldVxDT 1) = 0b1111000100000111#16 := by decide
theorem test_decode_ldDTVx :
    decodeTableWord 16 0b1111000000010101 = some (.ldDTVx 0) ∧ encode (.ldDTVx 0) = 0b1111000000010101#16 := by decide
theorem test_decode_ldSTVx :
    decodeTableWord 16 0b1111010000011000 = some (.ldSTVx 4) ∧ encode (.ldSTVx 4) = 0b1111010000011000#16 := by decide
theorem test_decode_ldVxK :
    decodeTableWord 16 0b1111001000001010 = some (.ldVxK 2) ∧ encode (.ldVxK 2) = 0b1111001000001010#16 := by decide
theorem test_decode_addI :
    decodeTableWord 16 0b1111001000011110 = some (.addI 2) ∧ encode (.addI 2) = 0b1111001000011110#16 := by decide
theorem test_decode_ldF :
    decodeTableWord 16 0b1111000000101001 = some (.ldF 0) ∧ encode (.ldF 0) = 0b1111000000101001#16 := by decide
theorem test_decode_ldB :
    decodeTableWord 16 0b1111000000110011 = some (.ldB 0) ∧ encode (.ldB 0) = 0b1111000000110011#16 := by decide
theorem test_decode_storeRegs :
    decodeTableWord 16 0b1111001001010101 = some (.storeRegs 2) ∧ encode (.storeRegs 2) = 0b1111001001010101#16 := by decide
theorem test_decode_loadRegs :
    decodeTableWord 16 0b1111111101100101 = some (.loadRegs 0xF) ∧ encode (.loadRegs 0xF) = 0b1111111101100101#16 := by decide

theorem test_decode_bytes_in_order : decode [0x6A, 0x7F, 0x12] = .ok (.ldImm 0xA 0x7F, [0x12]) := by rfl

theorem test_decode_one_byte_rejected : decode [0x6A] = .error .truncated := by rfl

theorem test_decode_rejects_by_word : decode [0x51, 0x21] = .error (.unrecognized 0x5121) := by rfl

/-! ### Well-formedness: a word of each ill-formed group is refused (30_encoding.md R68), its neighbour is not -/

theorem test_wf_0nnn : wellFormedWord 0x00E1 = false ∧ wellFormedWord 0x0000 = false ∧ wellFormedWord 0x00E0 = true := by
  decide

theorem test_wf_5xyN : wellFormedWord 0x5121 = false ∧ wellFormedWord 0x512F = false ∧ wellFormedWord 0x5120 = true := by
  decide

theorem test_wf_8xyN : wellFormedWord 0x8018 = false ∧ wellFormedWord 0x801D = false ∧ wellFormedWord 0x801F = false ∧
    wellFormedWord 0x801E = true := by decide

theorem test_wf_9xyN : wellFormedWord 0x9121 = false ∧ wellFormedWord 0x9120 = true := by decide

theorem test_wf_ExKK : wellFormedWord 0xE29F = false ∧ wellFormedWord 0xE000 = false ∧ wellFormedWord 0xE29E = true := by
  decide

theorem test_wf_FxKK : wellFormedWord 0xF090 = false ∧ wellFormedWord 0xFF66 = false ∧ wellFormedWord 0xFF65 = true := by
  decide

/-! ### One step -/

/-- 2.4 #1. -/
theorem test_cls_clears :
    ((gives (((State.reset).setDisplay (Vector.replicate 32 0xFF)).withFetchWord 16 0x00E0)
      fun t => t.display == Vector.replicate 32 0 && t.pc == 0x202)) = true := by decide

/-- 2.1 #1. -/
theorem test_ret_pops :
    ((gives ((nested 1 ((State.reset).setPc 0x212)).withFetchWord 16 0x00EE)
      fun t => t.pc == 0x206 && t.depth == 0 && t.stack[0] == 0x206)) = true := by decide

/-- 2.1 #2. -/
theorem test_ret_underflow :
    ((gives ((State.reset).withFetchWord 16 0x00EE)
      fun t => t.halted && t.faultCode == 2 && t.pc == 0x200 && t.depth == 0)) = true := by decide

/-- 2.1 #5. -/
theorem test_jp_low :
    ((gives ((State.reset).withFetchWord 16 0x11FF)
      fun t => t.pc == 0x1FF && t.output == [.diagnostic .lowTarget 0x1FF])) = true := by decide

/-- 2.1 #4. -/
theorem test_jp_not_low :
    ((gives ((State.reset).withFetchWord 16 0x1200)
      fun t => t.pc == 0x200 && t.output == [])) = true := by decide

/-- 2.1 #8. -/
theorem test_call_saves :
    ((gives ((nested 3 ((State.reset).setPc 0x204)).withFetchWord 16 0x2100)
      fun t => t.stack[3] == 0x206 && t.depth == 4 && t.pc == 0x100 && t.output == [.diagnostic .lowTarget 0x100])) = true := by decide

/-- 2.1 #10. -/
theorem test_call_overflow_without_diagnostic :
    ((gives ((nested 16 ((State.reset).setPc 0x204)).withFetchWord 16 0x2100)
      fun t => t.faultCode == 1 && t.pc == 0x204 && t.depth == 16 && t.output == [.fault .stackOverflow 0x204])) = true := by decide

/-- 2.1 #11, #12. -/
theorem test_seImm :
    ((gives (two 0x3042 0x42 0x00)
      fun t => t.pc == 0x204) &&
    (gives (two 0x3043 0x42 0x00)
      fun t => t.pc == 0x202)) = true := by decide

/-- 2.1 #13, #14. -/
theorem test_sneImm :
    ((gives (two 0x4042 0x42 0x00)
      fun t => t.pc == 0x202) &&
    (gives (two 0x4043 0x42 0x00)
      fun t => t.pc == 0x204)) = true := by decide

/-- 2.1 #15, #16. -/
theorem test_seReg :
    ((gives (two 0x5010 0x07 0x07)
      fun t => t.pc == 0x204) &&
    (gives (two 0x5010 0x07 0x08)
      fun t => t.pc == 0x202)) = true := by decide

/-- 2.1 #19, #20. -/
theorem test_sneReg :
    ((gives (two 0x9010 0x07 0x08)
      fun t => t.pc == 0x204) &&
    (gives (two 0x9010 0x07 0x07)
      fun t => t.pc == 0x202)) = true := by decide

/-- 2.1 #18. -/
theorem test_unrecognized_is_no_skip :
    ((gives (two 0x5011 0x07 0x07)
      fun t => t.pc == 0x202 && t.output == [.diagnostic .unrecognizedOpcode 0x5011])) = true := by decide

/-- 2.1 #23. -/
theorem test_jpV0_no_wrap :
    ((gives (two 0xBFFF 0xFF 0x00)
      fun t => t.pc == 0x10FE && t.output == [] && !t.halted)) = true := by decide

/-- 2.2 #1. -/
theorem test_ldImm :
    ((gives ((State.reset).withFetchWord 16 0x6A7F)
      fun t => t.reg 10 == 0x7F && t.pc == 0x202)) = true := by decide

/-- 2.2 #3. -/
theorem test_addImm_no_flag :
    ((gives (two 0x7001 0xFF 0x00)
      fun t => t.reg 0 == 0 && t.reg 15 == 0)) = true := by decide

/-- 2.2 #6. -/
theorem test_ldReg :
    ((gives (two 0x8010 0x00 0x55)
      fun t => t.reg 0 == 0x55 && t.reg 1 == 0x55)) = true := by decide

/-- 2.2 #7. -/
theorem test_orReg_keeps_VF :
    ((gives ((((State.reset).setReg 0 0xF0).setReg 1 0x0F).setReg 15 1 |>.withFetchWord 16 0x8011)
      fun t => t.reg 0 == 0xFF && t.reg 15 == 1)) = true := by decide

/-- 2.2 #8. -/
theorem test_andReg :
    ((gives (two 0x8012 0xF0 0x3C)
      fun t => t.reg 0 == 0x30)) = true := by decide

/-- 2.2 #9. -/
theorem test_xorReg :
    ((gives (two 0x8013 0xF0 0x3C)
      fun t => t.reg 0 == 0xCC)) = true := by decide

/-- S7. -/
theorem test_addReg_carry :
    ((gives (two 0x8014 0x5F 0xD2)
      fun t => t.reg 0 == 0x31 && t.reg 1 == 0xD2 && t.reg 15 == 1)) = true := by decide

/-- 2.2 #14. -/
theorem test_addReg_x15 :
    ((gives (((State.reset).setReg 15 0x80).withFetchWord 16 0x8FF4)
      fun t => t.reg 15 == 1)) = true := by decide

/-- 2.2 #17. -/
theorem test_subReg_borrow :
    ((gives (two 0x8015 0x10 0x20)
      fun t => t.reg 0 == 0xF0 && t.reg 15 == 0)) = true := by decide

/-- 2.2 #18. -/
theorem test_subReg_equal :
    ((gives (two 0x8015 0x33 0x33)
      fun t => t.reg 0 == 0 && t.reg 15 == 1)) = true := by decide

/-- 2.2 #26, #27. -/
theorem test_shrReg :
    ((gives (two 0x8016 0x05 0xF0)
      fun t => t.reg 0 == 2 && t.reg 15 == 1) &&
    (gives (optioned (two 0x8016 0x05 0xF0))
      fun t => t.reg 0 == 0x78 && t.reg 1 == 0xF0 && t.reg 15 == 0)) = true := by decide

/-- 2.2 #29. -/
theorem test_shrReg_x15 :
    ((gives (((State.reset).setReg 15 3).withFetchWord 16 0x8F16)
      fun t => t.reg 15 == 1)) = true := by decide

/-- 2.2 #23, #24. -/
theorem test_subnReg :
    ((gives (two 0x8017 0x20 0x10)
      fun t => t.reg 0 == 0xF0 && t.reg 15 == 0) &&
    (gives (two 0x8017 0x10 0x20)
      fun t => t.reg 0 == 0x10 && t.reg 15 == 1)) = true := by decide

/-- 2.2 #31, #32. -/
theorem test_shlReg :
    ((gives (two 0x801E 0x81 0x21)
      fun t => t.reg 0 == 2 && t.reg 15 == 1) &&
    (gives (optioned (two 0x801E 0x81 0x21))
      fun t => t.reg 0 == 0x42 && t.reg 15 == 0)) = true := by decide

/-- 2.3 #1. -/
theorem test_ldI :
    ((gives ((State.reset).withFetchWord 16 0xA123)
      fun t => t.I == 0x123)) = true := by decide

/-- 2.2 #35. -/
theorem test_rnd :
    ((gives (asked [.cycle 0xB7] ((State.reset).withFetchWord 16 0xC30F))
      fun t => t.reg 3 == 0x07 && t.commands == [])) = true := by decide

/-- 2.3 #4. -/
theorem test_addI_no_flag :
    ((gives ((((State.reset).setReg 0 0xFF).setI 0xFFF).withFetchWord 16 0xF01E)
      fun t => t.I == 0x10FE && t.reg 15 == 0)) = true := by decide

/-- 2.3 #5. -/
theorem test_addI_wraps :
    ((gives ((((State.reset).setReg 0 1).setI 0xFFFF).withFetchWord 16 0xF01E)
      fun t => t.I == 0)) = true := by decide

/-- 2.3 #7. -/
theorem test_ldF_low_nibble :
    ((gives (two 0xF029 0x1F 0x00)
      fun t => t.I == 0x4B)) = true := by decide

/-- 2.3 #14. -/
theorem test_ldB_last :
    ((gives ((((State.reset).setReg 0 199).setI 0xFFD).withFetchWord 16 0xF033)
      fun t => t.byteAt 0xFFD == 1 && t.byteAt 0xFFE == 9 && t.byteAt 0xFFF == 9)) = true := by decide

/-- 2.3 #15. -/
theorem test_ldB_out :
    ((gives (((State.reset).setI 0xFFE).withFetchWord 16 0xF033)
      fun t => t.faultCode == 4 && t.pc == 0x200 && t.byteAt 0xFFE == 0)) = true := by decide

/-- 2.3 #16, #17. -/
theorem test_storeRegs :
    ((gives ((((State.reset).setReg 0 0xAB).setI 0x400).withFetchWord 16 0xF055)
      fun t => t.byteAt 0x400 == 0xAB && t.byteAt 0x401 == 0 && t.I == 0x400) &&
    (gives (optioned ((((State.reset).setReg 0 0xAB).setI 0x400).withFetchWord 16 0xF055))
      fun t => t.byteAt 0x400 == 0xAB && t.I == 0x401)) = true := by decide

/-- 2.3 #19. -/
theorem test_storeRegs_out :
    ((gives ((((State.reset).setReg 0 1).setI 0xFFF).withFetchWord 16 0xF155)
      fun t => t.faultCode == 4 && t.byteAt 0xFFF == 0 && t.I == 0xFFF)) = true := by decide

/-- 2.3 #20. -/
theorem test_loadRegs :
    ((gives ((poke 0x300 2 (poke 0x301 3 (poke 0x302 4 (((State.reset).setReg 3 9).setI 0x300)))).withFetchWord 16 0xF265)
      fun t => t.reg 0 == 2 && t.reg 1 == 3 && t.reg 2 == 4 && t.reg 3 == 9 && t.I == 0x300)) = true := by decide

/-- 2.3 #24. -/
theorem test_loadRegs_font :
    ((gives ((State.reset).withFetchWord 16 0xF065)
      fun t => t.reg 0 == 0xF0)) = true := by decide

/-- S5. -/
theorem test_drw_wraps :
    ((gives ((poke 0x20E 0xC3 (poke 0x20F 0x81 ((((State.reset).setReg 0 63).setReg 1 31).setI 0x20E))).withFetchWord 16 0xD012)
      fun t => t.pixel 63 31 && t.pixel 0 31 && t.pixel 5 31 && t.pixel 6 31 && t.pixel 63 0 && t.pixel 6 0 && !t.pixel 1 31 && !t.pixel 0 0 && t.reg 15 == 0)) = true := by decide

/-- 2.4 #3, #5. -/
theorem test_drw_collides_and_no_rows :
    ((gives ((((State.reset).setReg 15 1).setI 0xFFFF).withFetchWord 16 0xD010)
      fun t => t.reg 15 == 0 && !t.halted) &&
    (gives ((poke 0x300 0xC0 (((State.reset).setI 0x300).setDisplay (Display.toggle Display.blank 0 0))).withFetchWord 16 0xD011)
      fun t => !t.pixel 0 0 && t.pixel 1 0 && t.reg 15 == 1 && t.I == 0x300)) = true := by decide

/-- 2.5 #1, #2. -/
theorem test_skp :
    ((gives (State.withFetchWord { (State.reset).setReg 2 7 with keys := 0x80 } 16 0xE29E)
      fun t => t.pc == 0x204) &&
    (gives (((State.reset).setReg 2 7).withFetchWord 16 0xE29E)
      fun t => t.pc == 0x202)) = true := by decide

/-- 2.5 #5. -/
theorem test_skp_out :
    ((gives (((State.reset).setReg 2 16).withFetchWord 16 0xE29E)
      fun t => t.faultCode == 5 && t.pc == 0x200)) = true := by decide

/-- 2.5 #3, #4. -/
theorem test_sknp :
    ((gives (((State.reset).setReg 2 7).withFetchWord 16 0xE2A1)
      fun t => t.pc == 0x204) &&
    (gives (State.withFetchWord { (State.reset).setReg 2 7 with keys := 0x80 } 16 0xE2A1)
      fun t => t.pc == 0x202)) = true := by decide

/-- 2.5 #6. -/
theorem test_sknp_out :
    ((gives (((State.reset).setReg 2 0xFF).withFetchWord 16 0xE2A1)
      fun t => t.faultCode == 5)) = true := by decide

/-- 2.5 #8. -/
theorem test_ldVxDT :
    ((gives (((State.reset).setDT 2).withFetchWord 16 0xF107)
      fun t => t.reg 1 == 2 && t.DT == 2)) = true := by decide

/-- 2.5 #9. -/
theorem test_ldDTVx :
    ((gives (two 0xF015 0x03 0x00)
      fun t => t.DT == 3 && t.ST == 0)) = true := by decide

/-- 2.5 #10. -/
theorem test_ldSTVx :
    ((gives (((State.reset).setReg 4 0x1E).withFetchWord 16 0xF418)
      fun t => t.ST == 0x1E && t.DT == 0)) = true := by decide

/-- 2.5 #11. -/
theorem test_ldVxK_enters :
    ((gives (State.withFetchWord { State.reset with keys := 0x08, pc := 0x20A } 16 0xF20A)
      fun t => t.awaiting && t.target == 2 && t.pc == 0x20C && t.reg 2 == 0)) = true := by decide

/-- 2.5 #13. -/
theorem test_wait_lowest_key :
    ((gives ({ State.reset with awaiting := true, target := 2, keys := 0x0280 })
      fun t => t.reg 2 == 7 && !t.awaiting && t.pc == 0x200)) = true := by decide

/-- 2.5 #15. -/
theorem test_wait_no_key :
    ((gives ({ State.reset with awaiting := true, target := 2 })
      fun t => t == { State.reset with awaiting := true, target := 2 })) = true := by decide

/-- 2.6 #1, #2. -/
theorem test_tick :
    ((gives (asked [.tick] { State.reset with DT := 1, ST := 5 })
      fun t => t.DT == 0 && t.ST == 4) &&
    (gives (asked [.tick] { State.reset with DT := 0, ST := 4 })
      fun t => t.DT == 0 && t.ST == 3)) = true := by decide

/-- 2.6 #4. -/
theorem test_tick_while_halted :
    ((gives (asked [.tick] { State.reset with DT := 2, halted := true, faultCode := 1 })
      fun t => t.DT == 1 && t.halted)) = true := by decide

/-- 2.6 #6. -/
theorem test_cycle_while_halted :
    ((gives ({ State.reset with halted := true, faultCode := 1 })
      fun t => t == { State.reset with halted := true, faultCode := 1 })) = true := by decide

/-- 2.6 #7. -/
theorem test_fetch_out_of_range :
    ((gives ((State.reset).setPc 0xFFF)
      fun t => t.halted && t.faultCode == 3 && t.pc == 0xFFF)) = true := by decide

/-- 2.6 #8. -/
theorem test_fetch_last :
    ((gives (((State.reset).setPc 0xFFE).withFetchWord 16 0x00E0)
      fun t => t.pc == 0x1000 && !t.halted)) = true := by decide

/-- 2.6 #9. -/
theorem test_fetch_odd :
    ((gives (((State.reset).setPc 0x201).withFetchWord 16 0x6A7F)
      fun t => t.reg 10 == 0x7F && t.pc == 0x203)) = true := by decide

/-- 2.6 #10. -/
theorem test_empty_memory_is_unrecognized :
    ((gives (State.reset)
      fun t => t.pc == 0x202 && t.output == [.diagnostic .unrecognizedOpcode 0])) = true := by decide

/-- 2.6 #11. -/
theorem test_setKeys_keeps_waiting :
    ((gives (asked [.setKeys 0x10] { State.reset with awaiting := true })
      fun t => t.key 4 && t.awaiting)) = true := by decide

/-- 60_exceptions.md R150, R151. -/
theorem test_read_commands :
    ((gives (asked [.readDisplay] State.reset)
      fun t => t.output == [.display (Vector.replicate 32 0)]) &&
    (gives (asked [.readStatus] ((State.reset).setDT 9))
      fun t => t.output == [.status 9 0 false false 0])) = true := by decide

/-- 60_exceptions.md R152. -/
theorem test_frame_commands :
    (frameCommands 0x80 [1, 2] == [.setKeys 0x80, .tick, .cycle 1, .cycle 2, .readDisplay]) = true := by decide

/-- 60_exceptions.md R140. -/
theorem test_diagnostic_codes :
    (Diagnostic.code .unrecognizedOpcode == 1 && Diagnostic.code .lowTarget == 2) = true := by decide

/-- 10_state.md R12. -/
theorem test_withFetchWord_from_out_of_range :
    ((gives (State.withFetchWord { State.reset with pc := 0x1000, halted := true, faultCode := 3 } 16 0x6A7F)
      fun t => t.reg 10 == 0x7F && t.pc == 0x202)) = true := by decide

/-! ### Witnesses: a concrete state and operands that meet the hypotheses of each statement, clause by clause -/

/-- EncodeOfDecodeIsTheWord. -/
theorem witness_encode_of_decode : decodeWord 0xD12F = some (.drw 1 2 0xF) := by decide

/-- UnrecognizedWordsEnumerated: a word at the edge of each group. -/
theorem witness_unrecognized_words :
    decodeWord 0x0000 = none ∧ decodeWord 0x0FFF = none ∧ decodeWord 0x5001 = none ∧ decodeWord 0x8008 = none ∧
    decodeWord 0x800F = none ∧ decodeWord 0x9001 = none ∧ decodeWord 0xE09D = none ∧ decodeWord 0xF066 = none ∧
    decodeWord 0x1000 ≠ none := by decide

/-- StepRunsTheDecodedInstruction, no command, an instruction that draws nothing. -/
theorem witness_step_free :
    let s := two 0x6A7F 0 0
    decode [s.byteAt s.pc.toNat, s.byteAt (s.pc.toNat + 1)] = .ok (.ldImm 0xA 0x7F, []) ∧ s.halted = false ∧
      s.awaiting = false ∧ s.pc.toNat ≤ 0xFFE ∧ s.commands = [] ∧ ∀ x kk, Instr.ldImm 0xA 0x7F ≠ .rnd x kk :=
  ⟨rfl, rfl, rfl, by decide, rfl, fun _ _ => nofun⟩

/-- StepRunsTheDecodedInstruction, `CYCLE(9)` at the last address a fetch may start at, `Cxkk`;
RandomByteIsMasked, second clause. -/
theorem witness_step_cycle :
    let s := asked [.cycle 9, .tick] (((State.reset).setPc 0xFFE).withFetchWord 16 0xC30F)
    decode [s.byteAt s.pc.toNat, s.byteAt (s.pc.toNat + 1)] = .ok (.rnd 3 0x0F, []) ∧
      decodeWord (wordOfBytes (s.byteAt s.pc.toNat) (s.byteAt (s.pc.toNat + 1))) = some (.rnd 3 0x0F) ∧
      s.halted = false ∧ s.awaiting = false ∧ s.pc.toNat ≤ 0xFFE ∧ s.commands = .cycle 9 :: [.tick] ∧
      ∃ x kk, Instr.rnd 3 0x0F = .rnd x kk :=
  ⟨rfl, by decide, rfl, rfl, by decide, rfl, 3, 0x0F, rfl⟩

/-- UnrecognizedWordIsNoOperation. -/
theorem witness_unrecognized :
    State.Fetching State.reset [] ∧
      0x0000#16 = wordOfBytes (State.reset.byteAt State.reset.pc.toNat) (State.reset.byteAt (State.reset.pc.toNat + 1)) ∧
      ∀ row ∈ opcodeTable, row.selects 0x0000#16 = false :=
  ⟨⟨.inl ⟨rfl, rfl⟩, rfl, rfl, by decide⟩, by decide, by decide⟩

/-- FetchOutOfRangeHalts, at the first `pc` that faults. -/
theorem witness_fetch_out_of_range :
    let s := asked [.cycle 0] (State.setPc 0xFFF State.reset)
    s.CycleNext [] ∧ s.halted = false ∧ s.awaiting = false ∧ 0xFFE < s.pc.toNat :=
  ⟨.inr ⟨0, rfl⟩, rfl, rfl, by decide⟩

/-- HaltedCycleChangesNothing, OnlyResetLeavesTheHaltedState. -/
theorem witness_halted :
    let s : State := { State.reset with halted := true, faultCode := 3 }
    s.halted = true ∧ s.CycleNext [] ∧ (∀ image o1 o2 rest, s.commands ≠ .reset image o1 o2 :: rest) ∧
      step s = .next s :=
  ⟨rfl, .inl ⟨rfl, rfl⟩, fun _ _ _ _ => nofun, rfl⟩

/-- WaitCycleTakesTheLowestKey, first clause. -/
theorem witness_wait_no_key :
    let s : State := { State.reset with awaiting := true }
    s.CycleNext [] ∧ s.halted = false ∧ s.awaiting = true ∧ ∀ k < 16, s.key k = false :=
  ⟨.inl ⟨rfl, rfl⟩, rfl, rfl, by decide⟩

/-- WaitCycleTakesTheLowestKey, second clause, at the highest key. -/
theorem witness_wait_key :
    let s : State := { State.reset with awaiting := true, target := 15, keys := 0x8000 }
    s.CycleNext [] ∧ s.halted = false ∧ s.awaiting = true ∧ s.key 15 = true ∧ ∀ j < 15, s.key j = false :=
  ⟨.inl ⟨rfl, rfl⟩, rfl, rfl, by decide, by decide⟩

/-- CallSavesTheReturnAddress and CallThenReturnComesBack, the last free slot, and the full stack;
ReturnPopsTheLastAddress, both clauses. -/
theorem witness_stack :
    (nested 15 State.reset).depth.val < 16 ∧ (nested 16 State.reset).depth.val = 16 ∧
      0 < (nested 1 State.reset).depth.val ∧ State.reset.depth.val = 0 := by decide

/-- DecimalDigitsAreStored, at the last `I` that does not fault. -/
theorem witness_digits :
    let s := State.setI 0xFFD State.reset
    Memory.wf s.memory = true ∧ s.InMemory 3 := by decide

/-- RegistersAreStored, RegistersAreLoaded, StoreThenLoadRoundTrips, at the last `I` that does not fault. -/
theorem witness_block :
    let s := State.setI 0xFF0 State.reset
    Memory.wf s.memory = true ∧ s.InMemory ((15#4).toNat + 1) := by decide

/-- AddressOutOfRangeHalts, each clause at the first `I` that faults. -/
theorem witness_address_out_of_range :
    1 ≤ (2#4).toNat ∧ 0xFFF < (State.setI 0xFFF State.reset).I.toNat + (2#4).toNat - 1 ∧
      0xFFF < (State.setI 0xFFE State.reset).I.toNat + 2 ∧
      0xFFF < (State.setI 0xFF1 State.reset).I.toNat + (15#4).toNat := by decide

/-- StoreIsSeenByTheNextFetch, `Fx55` over the next instruction: a `CYCLE` fetches it, and another comes after. -/
theorem witness_store_seen :
    let s := asked [.cycle 0, .cycle 9] ((State.setI 0x202 State.reset).withFetchWord 16 0xF155)
    Memory.wf s.memory = true ∧ s.Fetching [.cycle 9] ∧ s.InMemory ((1#4).toNat + 1) ∧
      decodeWord (wordOfBytes (s.byteAt s.pc.toNat) (s.byteAt (s.pc.toNat + 1))) = some (.storeRegs 1) ∧
      ∃ t, step s = .next t ∧ t.CycleNext [] ∧ t.pc.toNat ≤ Config.lastFetch :=
  ⟨by decide, ⟨.inr ⟨0, rfl⟩, rfl, rfl, by decide⟩, by decide, by decide, _, rfl, .inr ⟨9, rfl⟩, by decide⟩

/-- StoreIsSeenByTheNextFetch, `Fx33` over its own second byte and the next instruction. -/
theorem witness_digits_seen :
    let s := (State.setI 0x201 (State.setReg 0 255 State.reset)).withFetchWord 16 0xF033
    Memory.wf s.memory = true ∧ s.Fetching [] ∧ s.InMemory 3 ∧
      decodeWord (wordOfBytes (s.byteAt s.pc.toNat) (s.byteAt (s.pc.toNat + 1))) = some (.ldB 0) ∧
      ∃ t, step s = .next t ∧ t.Fetching [] :=
  ⟨by decide, ⟨.inl ⟨rfl, rfl⟩, rfl, rfl, by decide⟩, by decide, by decide, _, rfl, .inl ⟨rfl, rfl⟩, rfl, rfl, by decide⟩

/-- DrawXorsTheSprite: the first row of the font at (0, 0) on a set pixel, so that a set pixel meets a set bit. -/
theorem witness_draw_collision :
    let s := State.setDisplay (Display.toggle Display.blank 0 0) State.reset
    s.InMemory (1#4).toNat ∧ s.pixel 0 0 = true ∧ s.SpriteBit 0 1 1 0 0 :=
  ⟨by decide, by decide, 0, 0, by decide, by decide, by decide, by decide, by decide⟩

/-- DrawXorsTheSprite and DrawingTwiceRestoresTheDisplay on a clear display: no collision at first, one the second time;
and the form that draws no row, with `I` beyond memory. -/
theorem witness_draw_clear :
    let s := State.reset
    s.InMemory (1#4).toNat ∧ (∀ px py, s.pixel px py = false) ∧ s.SpriteBit 0 1 1 0 0 ∧
      (∃ row < (1#4).toNat, s.byteAt (s.I.toNat + row) ≠ 0) ∧
      (State.setI 0xFFFF State.reset).InMemory (0#4).toNat :=
  ⟨by decide, by decide, ⟨0, 0, by decide, by decide, by decide, by decide, by decide⟩, ⟨0, by decide, by decide⟩,
    by decide⟩

/-- DrawingTwiceRestoresTheDisplay, third clause: every pixel under the sprite was set. -/
theorem witness_draw_all_set :
    let s := State.setDisplay (Vector.replicate 32 (BitVec.allOnes 64)) State.reset
    s.InMemory (1#4).toNat ∧ ∀ px py, s.SpriteBit 0 1 1 px py → s.pixel px py = true :=
  ⟨by decide, fun px py _ => (by decide : ∀ px py,
    (State.setDisplay (Vector.replicate 32 (BitVec.allOnes 64)) State.reset).pixel px py = true) px py⟩

/-- KeySkipsTestTheKeyFlag, the last register value that names a key and the first that does not. -/
theorem witness_key_number :
    ((State.setReg 2 15 State.reset).reg 2).toNat ≤ 15 ∧ 15 < ((State.setReg 2 16 State.reset).reg 2).toNat := by decide

/-- KeyWaitResolvesByLevel. -/
theorem witness_key_wait :
    let s := State.withFetchWord { State.reset with keys := 0x0008 } 16 0xF20A
    s.Fetching [] ∧ s.key 3 = true ∧ (∀ j < 3, s.key j = false) ∧
      decodeWord (wordOfBytes (s.byteAt s.pc.toNat) (s.byteAt (s.pc.toNat + 1))) = some (.ldVxK 2) :=
  ⟨⟨.inl ⟨rfl, rfl⟩, rfl, rfl, by decide⟩, by decide, by decide, by decide⟩

/-- TickDecrementsBothTimers, SetKeysWritesTheFlags, ReadCommandsOnlyReport, ResetRefusesOtherImageLengths,
TickComesBeforeCycle. -/
theorem witness_commands :
    (asked [.tick] State.reset).commands = .tick :: [] ∧
      (asked [.setKeys 0x8001] State.reset).commands = .setKeys 0x8001 :: [] ∧
      (asked [.readDisplay] State.reset).commands = .readDisplay :: [] ∧
      (asked [.readStatus] State.reset).commands = .readStatus :: [] ∧
      (asked [.reset [0x12, 0x00] true false] State.reset).commands = .reset [0x12, 0x00] true false :: [] ∧
      [0x12#8, 0x00#8].length ≠ 3584 ∧ State.reset.commands = [] := by decide

/-- TickDecrementsBothTimers, second clause. -/
theorem witness_timers_rest :
    let s := two 0x6A7F 0 0
    (∃ t, step s = .next t) ∧ (∀ rest, s.commands ≠ .tick :: rest) ∧
      (∀ image o1 o2 rest, s.commands ≠ .reset image o1 o2 :: rest) ∧
      (∀ x, decodeWord (wordOfBytes (s.byteAt s.pc.toNat) (s.byteAt (s.pc.toNat + 1))) ≠ some (.ldDTVx x)) ∧
      ∀ x, decodeWord (wordOfBytes (s.byteAt s.pc.toNat) (s.byteAt (s.pc.toNat + 1))) ≠ some (.ldSTVx x) :=
  ⟨⟨_, rfl⟩, fun _ => nofun, fun _ _ _ _ => nofun, by decide, by decide⟩

/-- ResetPutsEveryElementAtItsValue and BootMemoryHoldsAnyFont. -/
theorem witness_reset :
    let s := asked [.reset (List.replicate 3584 0x12) true false] State.reset
    s.commands = .reset (List.replicate 3584 0x12) true false :: [] ∧ (List.replicate 3584 0x12#8).length = 3584 ∧
      (List.replicate 80 0xFF#8).length = 80 ∧ (List.replicate 432 0xFF#8).length = 432 :=
  ⟨rfl, List.length_replicate, List.length_replicate, List.length_replicate⟩

/-- EveryStepKeepsTheInvariant, EveryStepGoesOn: a state that meets the invariant, with a next state. -/
theorem witness_invariant :
    State.Inv State.reset ∧ (∃ t, step State.reset = .next t) ∧
      ∀ image o1 o2 rest, State.reset.commands = .reset image o1 o2 :: rest → image.length = 3584 :=
  ⟨⟨by decide, fun _ h => absurd h (Nat.not_lt_zero _), by decide, by decide, by decide⟩, ⟨_, rfl⟩, fun _ _ _ _ => nofun⟩

/-- FaultsArePrecise: a step that halts. -/
theorem witness_fault : ∃ t, (two 0x00EE 0 0).halted = false ∧ step (two 0x00EE 0 0) = .next t ∧ t.halted = true :=
  ⟨_, rfl, rfl, rfl⟩

/-- OnlyTheseInstructionsWrite, OnlyTheDestinationRegisterChanges: an instruction that changes its destination, and one
that changes memory. -/
theorem witness_write :
    (∃ t, exec (.ldImm 3 9) State.reset = .next t ∧ t.reg 3 ≠ State.reset.reg 3) ∧
      ∃ t, exec (.storeRegs 0) (State.setReg 0 7 (State.setI 0x300 State.reset)) = .next t ∧
        t.memory ≠ (State.setReg 0 7 (State.setI 0x300 State.reset)).memory :=
  ⟨⟨_, rfl, by decide⟩, _, rfl, by decide⟩

/-- OnlyTheseInstructionsWrite: the display; the stack and its depth. -/
theorem witness_write_display_stack :
    (∃ t, exec .cls (State.setDisplay (Display.toggle Display.blank 0 0) State.reset) = .next t ∧
      t.display ≠ (State.setDisplay (Display.toggle Display.blank 0 0) State.reset).display) ∧
      ∃ t, exec (.call 0x300) State.reset = .next t ∧ t.stack ≠ State.reset.stack ∧ t.depth ≠ State.reset.depth :=
  ⟨⟨_, rfl, by decide⟩, _, rfl, by decide, by decide⟩

/-- OnlyTheseInstructionsWrite: the timers, `I`, the wait state, the latch. -/
theorem witness_write_others :
    (∃ t, exec (.ldDTVx 0) (State.setReg 0 7 State.reset) = .next t ∧ t.DT ≠ (State.setReg 0 7 State.reset).DT) ∧
      (∃ t, exec (.ldSTVx 0) (State.setReg 0 7 State.reset) = .next t ∧ t.ST ≠ (State.setReg 0 7 State.reset).ST) ∧
      (∃ t, exec (.ldI 0x300) State.reset = .next t ∧ t.I ≠ State.reset.I) ∧
      (∃ t, exec (.ldVxK 2) State.reset = .next t ∧ t.awaiting ≠ State.reset.awaiting) ∧
      ∃ t, exec .ret State.reset = .next t ∧ t.halted ≠ State.reset.halted :=
  ⟨⟨_, rfl, by decide⟩, ⟨_, rfl, by decide⟩, ⟨_, rfl, by decide⟩, ⟨_, rfl, by decide⟩, _, rfl, by decide⟩

/-- RandomOperandAffectsOnlyRnd, OptionsAffectOnlyFourInstructions, ReportsAffectNothing. -/
theorem witness_independent :
    (∀ x kk, Instr.jp 0x100 ≠ .rnd x kk) ∧ (∀ x y, Instr.jp 0x100 ≠ .shrReg x y ∧ Instr.jp 0x100 ≠ .shlReg x y) ∧
      (∀ x, Instr.jp 0x100 ≠ .storeRegs x ∧ Instr.jp 0x100 ≠ .loadRegs x) ∧
      ∃ t, exec (.jp 0x100) State.reset = .next t ∧ t.output.length = 1 :=
  ⟨fun _ _ => nofun, fun _ _ => ⟨nofun, nofun⟩, fun _ => ⟨nofun, nofun⟩, _, rfl, rfl⟩

end Sys2Proof.Tests
end

section
/-! PROOF. The decoder rejects every word that no row of the opcode table selects (30_encoding.md R66, R67), and so a
`CYCLE` that fetches such a word is the no-operation of R67. -/

namespace Sys2Proof

variable {op : Word} {i : Instr} {m : String}

/-! ### When a row selects a word, by the three masks of the table -/

theorem OpcodeRow.selects_of_major (c : Nibble) (h : op.n1.toNat = c.toNat) :
    OpcodeRow.selects ⟨m, 0xF000#16, c ++ 0#12⟩ op = true := by
  simp [OpcodeRow.selects, and_majorMask, BitVec.eq_of_toNat_eq h]

theorem OpcodeRow.selects_of_major_nibble (c n : Nibble) (hc : op.n1.toNat = c.toNat) (hn : op.n.toNat = n.toNat) :
    OpcodeRow.selects ⟨m, 0xF00F#16, c ++ 0#4 ++ 0#4 ++ n⟩ op = true := by
  simp [OpcodeRow.selects, and_nibbleMask, BitVec.eq_of_toNat_eq hc, BitVec.eq_of_toNat_eq hn]

theorem OpcodeRow.selects_of_major_byte (c : Nibble) (k : Byte) (hc : op.n1.toNat = c.toNat)
    (hk : op.kk.toNat = k.toNat) : OpcodeRow.selects ⟨m, 0xF0FF#16, c ++ 0#4 ++ k⟩ op = true := by
  simp [OpcodeRow.selects, and_byteMask, BitVec.eq_of_toNat_eq hc, BitVec.eq_of_toNat_eq hk]

/-- The rows of `00E0` and `00EE` fix every bit of the word. -/
theorem OpcodeRow.selects_of_fields (c : Nibble) (a : Addr) (hc : op.n1.toNat = c.toNat) (ha : op.nnn = a) :
    OpcodeRow.selects ⟨m, 0xFFFF#16, c ++ a⟩ op = true := by
  have e : op = (c ++ a : BitVec (4 + 12)) := by
    apply BitVec.eq_of_toNat_eq
    rw [Word.toNat_addr, ← hc, ← ha, Word.toNat_n1, Word.toNat_nnn]
    omega
  have mask : op &&& 0xFFFF#16 = op := BitVec.and_allOnes
  rw [OpcodeRow.selects, mask, ← e, beq_self_eq_true]

/-! ### What a group of the decoder accepts, the row of the answer selects -/

open OpcodeRow

theorem row_selects_of_decodeSystem (h1 : op.n1.toNat = 0x0) (h : decodeSystem op = some i) :
    i.row.selects op = true := by
  unfold decodeSystem at h
  split_ifs at h with ha ha <;> cases h
  · exact selects_of_fields 0x0 0x0E0 h1 ha
  · exact selects_of_fields 0x0 0x0EE h1 ha

theorem row_selects_of_decodeAlu (h1 : op.n1.toNat = 0x8) (h : decodeAlu op = some i) :
    i.row.selects op = true := by
  unfold decodeAlu at h
  split at h <;> cases h
  · exact selects_of_major_nibble 0x8 0x0 h1 ‹_›
  · exact selects_of_major_nibble 0x8 0x1 h1 ‹_›
  · exact selects_of_major_nibble 0x8 0x2 h1 ‹_›
  · exact selects_of_major_nibble 0x8 0x3 h1 ‹_›
  · exact selects_of_major_nibble 0x8 0x4 h1 ‹_›
  · exact selects_of_major_nibble 0x8 0x5 h1 ‹_›
  · exact selects_of_major_nibble 0x8 0x6 h1 ‹_›
  · exact selects_of_major_nibble 0x8 0x7 h1 ‹_›
  · exact selects_of_major_nibble 0x8 0xE h1 ‹_›

theorem row_selects_of_decodeKey (h1 : op.n1.toNat = 0xE) (h : decodeKey op = some i) :
    i.row.selects op = true := by
  unfold decodeKey at h
  split_ifs at h with hk hk <;> cases h
  · exact selects_of_major_byte 0xE 0x9E h1 (congrArg BitVec.toNat hk)
  · exact selects_of_major_byte 0xE 0xA1 h1 (congrArg BitVec.toNat hk)

theorem row_selects_of_decodeMisc (h1 : op.n1.toNat = 0xF) (h : decodeMisc op = some i) :
    i.row.selects op = true := by
  unfold decodeMisc at h
  split at h <;> cases h
  · exact selects_of_major_byte 0xF 0x07 h1 ‹_›
  · exact selects_of_major_byte 0xF 0x0A h1 ‹_›
  · exact selects_of_major_byte 0xF 0x15 h1 ‹_›
  · exact selects_of_major_byte 0xF 0x18 h1 ‹_›
  · exact selects_of_major_byte 0xF 0x1E h1 ‹_›
  · exact selects_of_major_byte 0xF 0x29 h1 ‹_›
  · exact selects_of_major_byte 0xF 0x33 h1 ‹_›
  · exact selects_of_major_byte 0xF 0x55 h1 ‹_›
  · exact selects_of_major_byte 0xF 0x65 h1 ‹_›

/-- The row of the instruction a word decodes to selects the word (30_encoding.md R66). -/
theorem row_selects_of_decodeWord (h : decodeWord op = some i) : i.row.selects op = true := by
  unfold decodeWord at h
  split at h
  case h_1 h1 => exact row_selects_of_decodeSystem h1 h
  case h_2 h1 => cases h; exact selects_of_major 0x1 h1
  case h_3 h1 => cases h; exact selects_of_major 0x2 h1
  case h_4 h1 => cases h; exact selects_of_major 0x3 h1
  case h_5 h1 => cases h; exact selects_of_major 0x4 h1
  case h_6 h1 =>
    split_ifs at h with hn
    cases h; exact selects_of_major_nibble 0x5 0x0 h1 (congrArg BitVec.toNat hn)
  case h_7 h1 => cases h; exact selects_of_major 0x6 h1
  case h_8 h1 => cases h; exact selects_of_major 0x7 h1
  case h_9 h1 => exact row_selects_of_decodeAlu h1 h
  case h_10 h1 =>
    split_ifs at h with hn
    cases h; exact selects_of_major_nibble 0x9 0x0 h1 (congrArg BitVec.toNat hn)
  case h_11 h1 => cases h; exact selects_of_major 0xA h1
  case h_12 h1 => cases h; exact selects_of_major 0xB h1
  case h_13 h1 => cases h; exact selects_of_major 0xC h1
  case h_14 h1 => cases h; exact selects_of_major 0xD h1
  case h_15 h1 => exact row_selects_of_decodeKey h1 h
  case h_16 =>
    have h1 : op.n1.toNat = 0xF := by
      have := op.n1.isLt
      simp only [imp_false] at *
      omega
    exact row_selects_of_decodeMisc h1 h

/-! ### The decoder and the table -/

/-- Every instruction's row stands in the opcode table: no row depends on the operands, so the table is searched by
computation. -/
theorem Instr.row_mem_opcodeTable (i : Instr) : i.row ∈ opcodeTable := by
  cases i <;> exact of_decide_eq_true rfl

/-- A word that no row of the table selects is unrecognized (30_encoding.md R67). -/
theorem decodeWord_eq_none_of_no_row (h : ∀ row ∈ opcodeTable, row.selects op = false) : decodeWord op = none := by
  refine Option.eq_none_iff_forall_ne_some.mpr fun i hi => ?_
  have hsel : i.row.selects op = true := row_selects_of_decodeWord hi
  exact absurd hsel (Bool.eq_false_iff.mp (h i.row i.row_mem_opcodeTable))

end Sys2Proof

namespace Sys2Proof.Machine

/-- Settles O7: the decoder rejects a word that no row selects, and a `CYCLE` that fetches a rejected word is the
no-operation of R67 by `runsWord_of_fetching`. -/
theorem unrecognizedWordIsNoOperation : Obligations.UnrecognizedWordIsNoOperation := by
  unfold Obligations.UnrecognizedWordIsNoOperation
  rintro s rest op hf rfl hrows
  obtain ⟨-, -, runs_unrecognized⟩ := runsWord_of_fetching hf
  exact runs_unrecognized (decodeWord_eq_none_of_no_row hrows)

end Sys2Proof.Machine
end

section
/-! PROOF. The skips and the jump (40_control_flow.md R81, R83 to R86): their words decode to them, and what they do to
the state is `State.skipIf`, or `State.warnLowTarget` and then `State.setPc`. -/

namespace Sys2Proof

/-! ### The words of the jump and the skips -/

theorem decodeWord_jp (nnn : Addr) : decodeWord (0x1#4 ++ nnn) = some (.jp nnn) := by
  simp [decodeWord]

theorem decodeWord_seImm (x : RegNum) (kk : Byte) : decodeWord (0x3#4 ++ x ++ kk) = some (.seImm x kk) := by
  simp [decodeWord]

theorem decodeWord_sneImm (x : RegNum) (kk : Byte) : decodeWord (0x4#4 ++ x ++ kk) = some (.sneImm x kk) := by
  simp [decodeWord]

theorem decodeWord_seReg (x y : RegNum) : decodeWord (0x5#4 ++ x ++ y ++ 0x0#4) = some (.seReg x y) := by
  simp [decodeWord]

theorem decodeWord_sneReg (x y : RegNum) : decodeWord (0x9#4 ++ x ++ y ++ 0x0#4) = some (.sneReg x y) := by
  simp [decodeWord]

end Sys2Proof

namespace Sys2Proof.Machine

section

variable (s : State)

/-! ### The two forms of a skip -/

/-- A skip whose condition is that `p` holds (30_encoding.md R65). -/
theorem State.skipIf_decide (p : Prop) [Decidable p] :
    s.skipIf (decide p) = { s with pc := if p then s.pc + 4 else s.pc + 2 } := by
  simp only [State.skipIf, State.setPc, decide_eq_true_eq]

/-- A skip whose condition is that `p` fails. -/
theorem State.skipIf_decide_not (p : Prop) [Decidable p] :
    s.skipIf (decide (¬ p)) = { s with pc := if p then s.pc + 2 else s.pc + 4 } := by
  rw [State.skipIf_decide, ite_not]

/-! ### The low-target diagnostic -/

/-- `State.warnLowTarget` changes the reports alone (60_exceptions.md R142). -/
theorem State.warnLowTarget_frame (nnn : Addr) :
    s.warnLowTarget nnn = { s with output := (s.warnLowTarget nnn).output } := by
  unfold State.warnLowTarget
  split <;> rfl

/-! ### The meanings of the jump and the skips -/

theorem exec_jp (nnn : Addr) : exec (.jp nnn) s = .next ((s.warnLowTarget nnn).setPc (nnn.zeroExtend 16)) := rfl

theorem exec_seImm (x : RegNum) (kk : Byte) : exec (.seImm x kk) s = .next (s.skipIf (decide (s.reg x = kk))) := rfl

theorem exec_sneImm (x : RegNum) (kk : Byte) : exec (.sneImm x kk) s = .next (s.skipIf (decide (¬ s.reg x = kk))) := rfl

theorem exec_seReg (x y : RegNum) : exec (.seReg x y) s = .next (s.skipIf (decide (s.reg x = s.reg y))) := rfl

theorem exec_sneReg (x y : RegNum) : exec (.sneReg x y) s = .next (s.skipIf (decide (¬ s.reg x = s.reg y))) := rfl

end

/-! ### The obligations -/

/-- Settles O18: each skip is `State.skipIf` of its condition. -/
theorem skipsAdvanceByFourOrTwo : Obligations.SkipsAdvanceByFourOrTwo := by
  unfold Obligations.SkipsAdvanceByFourOrTwo
  intro s x y kk
  refine ⟨decodeWord_seImm x kk, decodeWord_sneImm x kk, decodeWord_seReg x y, decodeWord_sneReg x y, ?_, ?_, ?_, ?_⟩
  · rw [exec_seImm, State.skipIf_decide]
  · rw [exec_sneImm, State.skipIf_decide_not]
  · rw [exec_seReg, State.skipIf_decide]
  · rw [exec_sneReg, State.skipIf_decide_not]

/-- Settles O19: the jump warns by `State.warnLowTarget`, which touches the reports alone, and then sets `pc`. -/
theorem jumpIsAlwaysTaken : Obligations.JumpIsAlwaysTaken := by
  unfold Obligations.JumpIsAlwaysTaken
  intro s nnn
  refine ⟨decodeWord_jp nnn, _, exec_jp s nnn, ?target, ?reports, ?frame⟩
  case target => exact BitVec.toNat_setWidth_of_le (by decide)
  case reports =>
    have info : nnn.zeroExtend 16 = BitVec.ofNat 16 nnn.toNat := (BitVec.ofNat_toNat 16 nnn).symm
    rw [State.setPc_output, State.warnLowTarget_output, info]
  case frame => exact congrArg (State.setPc (nnn.zeroExtend 16)) (s.warnLowTarget_frame nnn)

end Sys2Proof.Machine
end

section
/-! PROOF. The instructions that write one register and no flag (41_load_alu.md R90 to R95): their words decode to them,
and each is `writeReg` of its result, which writes `V[x]`, advances `pc` and changes nothing else. -/

namespace Sys2Proof

/-! ### The words of the loads, the immediate add, the copy and the logic operations -/

theorem decodeWord_ldImm (x : RegNum) (kk : Byte) : decodeWord (0x6#4 ++ x ++ kk) = some (.ldImm x kk) := by
  simp [decodeWord]

theorem decodeWord_addImm (x : RegNum) (kk : Byte) : decodeWord (0x7#4 ++ x ++ kk) = some (.addImm x kk) := by
  simp [decodeWord]

/-- A word of the `8` group is decoded by its low nibble (30_encoding.md R68). -/
theorem decodeWord_alu (x y : RegNum) (n : Nibble) :
    decodeWord (0x8#4 ++ x ++ y ++ n) = decodeAlu (0x8#4 ++ x ++ y ++ n) := by
  simp [decodeWord]

theorem decodeWord_ldReg (x y : RegNum) : decodeWord (0x8#4 ++ x ++ y ++ 0x0#4) = some (.ldReg x y) := by
  rw [decodeWord_alu]; simp [decodeAlu]

theorem decodeWord_orReg (x y : RegNum) : decodeWord (0x8#4 ++ x ++ y ++ 0x1#4) = some (.orReg x y) := by
  rw [decodeWord_alu]; simp [decodeAlu]

theorem decodeWord_andReg (x y : RegNum) : decodeWord (0x8#4 ++ x ++ y ++ 0x2#4) = some (.andReg x y) := by
  rw [decodeWord_alu]; simp [decodeAlu]

theorem decodeWord_xorReg (x y : RegNum) : decodeWord (0x8#4 ++ x ++ y ++ 0x3#4) = some (.xorReg x y) := by
  rw [decodeWord_alu]; simp [decodeAlu]

end Sys2Proof

namespace Sys2Proof.Machine

/-! ### The sum of `AddWithCarry` -/

/-- The sum is the sum of the numbers modulo 256 (41_load_alu.md R102). -/
theorem addWithCarry_fst (a b : Byte) : (addWithCarry a b).1 = BitVec.ofNat 8 ((a.toNat + b.toNat) % 256) := by
  apply BitVec.eq_of_toNat_eq
  simp [addWithCarry]

section

variable (s : State)

/-! ### Writing one register -/

/-- The two laws of `Regs.write` over states; the advance leaves the registers alone. -/
theorem State.regWritten_setReg_advance (x : RegNum) (b : Byte) : s.RegWritten (s.setReg x b).advance x b :=
  ⟨Regs.read_write_self s.V x b, fun _ hr => Regs.read_write_of_ne s.V b hr⟩

/-- What `writeReg` does, with its frame: the register written, `pc` advanced, the rest as it was. -/
theorem writeReg_effect (x : RegNum) (b : Byte) :
    ∃ t, writeReg x b s = .next t ∧ s.RegWritten t x b ∧ t = { s with V := t.V, pc := s.pc + 2 } :=
  ⟨(s.setReg x b).advance, rfl, s.regWritten_setReg_advance x b, rfl⟩

/-! ### The meanings -/

theorem exec_ldImm (x : RegNum) (kk : Byte) : exec (.ldImm x kk) s = writeReg x kk s := rfl

theorem exec_addImm (x : RegNum) (kk : Byte) : exec (.addImm x kk) s = writeReg x (addWithCarry (s.reg x) kk).1 s := rfl

theorem exec_ldReg (x y : RegNum) : exec (.ldReg x y) s = writeReg x (s.reg y) s := rfl

theorem exec_orReg (x y : RegNum) : exec (.orReg x y) s = writeReg x (s.reg x ||| s.reg y) s := rfl

theorem exec_andReg (x y : RegNum) : exec (.andReg x y) s = writeReg x (s.reg x &&& s.reg y) s := rfl

theorem exec_xorReg (x y : RegNum) : exec (.xorReg x y) s = writeReg x (s.reg x ^^^ s.reg y) s := rfl

end

/-! ### The obligations -/

/-- Settles O11: both are `writeReg`, of the immediate and of the sum of `AddWithCarry`. -/
theorem immediateLoadAndAdd : Obligations.ImmediateLoadAndAdd := by
  unfold Obligations.ImmediateLoadAndAdd
  intro s x kk
  refine ⟨decodeWord_ldImm x kk, decodeWord_addImm x kk, ?load, ?add⟩
  case load =>
    rw [exec_ldImm]
    exact writeReg_effect s x kk
  case add =>
    rw [exec_addImm, addWithCarry_fst]
    exact writeReg_effect s x _

/-- Settles O12: each of the four is `writeReg` of its result, so `VF` is written only as `V[x]`. -/
theorem registerCopyAndLogic : Obligations.RegisterCopyAndLogic := by
  unfold Obligations.RegisterCopyAndLogic
  intro s x y
  refine ⟨decodeWord_ldReg x y, decodeWord_orReg x y, decodeWord_andReg x y, decodeWord_xorReg x y, ?_, ?_, ?_, ?_⟩
  · rw [exec_ldReg]
    exact writeReg_effect s x (s.reg y)
  · rw [exec_orReg]
    exact writeReg_effect s x (s.reg x ||| s.reg y)
  · rw [exec_andReg]
    exact writeReg_effect s x (s.reg x &&& s.reg y)
  · rw [exec_xorReg]
    exact writeReg_effect s x (s.reg x ^^^ s.reg y)

end Sys2Proof.Machine
end

section
/-! PROOF. The loads of the index register (42_index_memory.md R105, R107): their words decode to them, and each is
`State.setI` of its result and then the advance. -/

namespace Sys2Proof

/-! ### The words of the index loads -/

theorem decodeWord_ldI (nnn : Addr) : decodeWord (0xA#4 ++ nnn) = some (.ldI nnn) := by
  simp [decodeWord]

/-- A word of the `F` group is decoded by its low byte (30_encoding.md R68). -/
theorem decodeWord_misc (x : RegNum) (kk : Byte) : decodeWord (0xF#4 ++ x ++ kk) = decodeMisc (0xF#4 ++ x ++ kk) := by
  simp [decodeWord]

theorem decodeWord_ldF (x : RegNum) : decodeWord (0xF#4 ++ x ++ 0x29#8) = some (.ldF x) := by
  rw [decodeWord_misc]; simp [decodeMisc]

end Sys2Proof

namespace Sys2Proof.Machine

/-! ### The address of a glyph -/

/-- The glyph's address is five times the low nibble; at most 75, so sixteen bits hold it (42_index_memory.md R107). -/
theorem toNat_glyphAddress (b : Byte) : (BitVec.ofNat 16 ((b &&& 0x0F).toNat * 5)).toNat = b.toNat % 16 * 5 := by
  have nibble : (b &&& 0x0F).toNat = b.toNat % 16 := Nat.and_two_pow_sub_one_eq_mod b.toNat 4
  have fits : b.toNat % 16 * 5 < 2 ^ 16 := by omega
  rw [nibble, BitVec.toNat_ofNat, Nat.mod_eq_of_lt fits]

section

variable (s : State)

/-! ### Loading the index register -/

/-- Loading `I` and advancing changes `I` and `pc` alone. -/
theorem State.setI_advance_frame (w : Word) : (s.setI w).advance = { s with I := w, pc := s.pc + 2 } := rfl

theorem exec_ldI (nnn : Addr) : exec (.ldI nnn) s = .next (s.setI (nnn.zeroExtend 16)).advance := rfl

theorem exec_ldF (x : RegNum) :
    exec (.ldF x) s = .next (s.setI (BitVec.ofNat 16 ((s.reg x &&& 0x0F).toNat * 5))).advance := rfl

end

/-! ### The obligation -/

/-- Settles O24: both load `I` and advance; the address is extended to the sixteen bits of `I`, and the glyph's address
fits in them. -/
theorem indexLoads : Obligations.IndexLoads := by
  unfold Obligations.IndexLoads
  intro s
  refine ⟨decodeWord_ldI, decodeWord_ldF, fun nnn => ?address, fun x => ?glyph⟩
  case address =>
    have value : (nnn.zeroExtend 16).toNat = nnn.toNat := BitVec.toNat_setWidth_of_le (by decide)
    exact ⟨_, exec_ldI s nnn, value, s.setI_advance_frame _⟩
  case glyph => exact ⟨_, exec_ldF s x, toNat_glyphAddress (s.reg x), s.setI_advance_frame _⟩

end Sys2Proof.Machine
end

section
/-! PROOF. The clear (43_display.md R115): its word decodes to it, and it is `State.setDisplay` of the blank display and
then the advance. -/

namespace Sys2Proof

theorem decodeWord_cls : decodeWord 0x00E0#16 = some .cls := by decide

end Sys2Proof

namespace Sys2Proof.Machine

section

variable (s : State)

theorem exec_cls : exec .cls s = .next (s.setDisplay Display.blank).advance := rfl

/-- Writing the display and advancing changes the display and `pc` alone. -/
theorem State.setDisplay_advance_frame (d : Display) :
    (s.setDisplay d).advance = { s with display := d, pc := s.pc + 2 } := rfl

/-- After the display is written, the pixels are those of the written display; the advance leaves them alone. -/
theorem State.pixel_setDisplay_advance (d : Display) (px : Fin 64) (py : Fin 32) :
    (s.setDisplay d).advance.pixel px py = Display.pixel d px py := rfl

end

/-! ### The obligation -/

/-- Settles O32: the clear writes the blank display, every pixel of which is off, and advances. -/
theorem clearTurnsEveryPixelOff : Obligations.ClearTurnsEveryPixelOff := by
  unfold Obligations.ClearTurnsEveryPixelOff
  refine ⟨decodeWord_cls, fun s => ⟨_, exec_cls s, fun px py => ?pixels, ?frame⟩⟩
  case pixels => rw [State.pixel_setDisplay_advance, Display.pixel_blank]
  case frame => exact s.setDisplay_advance_frame Display.blank

end Sys2Proof.Machine
end

section
/-! PROOF. The wait-state cycle (44_keys_timers.md R124): the step is `State.waitCycle`, which leaves the state alone when
no key is down and otherwise writes the target with the lowest key that is down. -/

namespace Sys2Proof.Machine

section

variable {s : State}

/-! ### The step in the wait state -/

/-- In the wait state a `CYCLE` is the wait-state cycle, whatever supplies the random operand (30_encoding.md R64). -/
theorem cycle_of_awaiting (supply : State → State) (hh : s.halted = false) (ha : s.awaiting = true) :
    cycle supply s = .next s.waitCycle := by
  simp [cycle, hh, ha]

theorem step_of_awaiting {rest : List Command} (hc : s.CycleNext rest) (hh : s.halted = false)
    (ha : s.awaiting = true) : step s = .next (State.waitCycle { s with commands := rest }) := by
  obtain ⟨supply, -, hstep⟩ := step_of_cycleNext hc
  exact hstep.trans (cycle_of_awaiting supply hh ha)

/-! ### The two outcomes of the wait-state cycle -/

theorem State.waitCycle_of_no_key (up : ∀ k < 16, s.key k = false) : s.waitCycle = s := by
  obtain ⟨-, same⟩ | ⟨k, hk, down, -, -⟩ := s.waitCycle_cases
  · exact same
  · exact absurd down (Bool.eq_false_iff.mp (up k hk))

/-- The lowest key that is down is unique, so it is the key the wait-state cycle stores. -/
theorem State.waitCycle_of_lowest_key {k : Nat} (down : s.key k = true) (lowest : ∀ j < k, s.key j = false) :
    s.waitCycle = (s.setReg s.target (BitVec.ofNat 8 k)).setWait false s.target := by
  obtain ⟨none_down, -⟩ | ⟨k', -, down', lowest', stored⟩ := s.waitCycle_cases
  · simp [State.key, none_down] at down
  · have not_below : ¬ k < k' := fun hlt => by simp [lowest' k hlt] at down
    have not_above : ¬ k' < k := fun hlt => by simp [lowest k' hlt] at down'
    have same_key : k' = k := by omega
    rw [stored, same_key]

/-- The two laws of `Regs.write` over states; the end of the wait leaves the registers alone. -/
theorem State.regWritten_setReg_setWait (x r : RegNum) (b : Byte) (a : Bool) :
    s.RegWritten ((s.setReg x b).setWait a r) x b :=
  ⟨Regs.read_write_self s.V x b, fun _ hr => Regs.read_write_of_ne s.V b hr⟩

end

/-! ### The obligation -/

/-- Settles O10: the step is the wait-state cycle on the state with the `CYCLE` taken, and its two outcomes are the two
clauses. -/
theorem waitCycleTakesTheLowestKey : Obligations.WaitCycleTakesTheLowestKey := by
  unfold Obligations.WaitCycleTakesTheLowestKey
  intro s rest hc hh ha
  have wait_cycle : step s = .next (State.waitCycle { s with commands := rest }) := step_of_awaiting hc hh ha
  refine ⟨fun up => ?no_key, fun k _ down lowest => ?lowest_key⟩
  case no_key =>
    have unchanged := State.waitCycle_of_no_key (s := { s with commands := rest }) up
    rwa [unchanged] at wait_cycle
  case lowest_key =>
    have stored := State.waitCycle_of_lowest_key (s := { s with commands := rest }) down lowest
    rw [stored] at wait_cycle
    exact ⟨_, wait_cycle, State.regWritten_setReg_setWait _ _ _ _, rfl⟩

end Sys2Proof.Machine
end

section
/-! PROOF. The timers (60_exceptions.md R147): `TICK` takes each down by one, and of the other commands only a `CYCLE`
that runs `Fx15` or `Fx18` writes one. -/

namespace Sys2Proof.Machine

variable {s t : State}

/-! ### `TICK` -/

theorem step_of_command {c : Command} {rest : List Command} (hc : s.commands = c :: rest) :
    step s = perform c { s with commands := rest } := by
  simp [step, performNext, hc]

/-- A timer's decrement is the truncated subtraction of the numbers. -/
theorem toNat_timer_decrement (v : Byte) : (if v = 0 then 0 else v - 1).toNat = v.toNat - 1 := by
  split
  case isTrue zero => simp [zero]
  case isFalse nonzero => bv_omega

theorem step_of_tick {rest : List Command} (hc : s.commands = .tick :: rest) :
    step s = .next (State.tick { s with commands := rest }) := step_of_command hc

/-! ### The timers a step leaves as they were -/

/-- From `s` to `t` the delay timer is kept unless the instruction `ran` is `Fx15`, and the sound timer unless it is
`Fx18` (44_keys_timers.md R125, R126). -/
def State.TimersKept (s t : State) (ran : Option Instr) : Prop :=
  ((∀ x, ran ≠ some (.ldDTVx x)) → t.DT = s.DT) ∧ ((∀ x, ran ≠ some (.ldSTVx x)) → t.ST = s.ST)

theorem State.TimersKept.of_eq {ran : Option Instr} (hDT : t.DT = s.DT) (hST : t.ST = s.ST) : s.TimersKept t ran :=
  ⟨fun _ => hDT, fun _ => hST⟩

/-- An `I`-relative access keeps the timers when its effect does: its fault does. -/
theorem State.timersKept_accessing {count : Nat} {effect : State → State} {ran : Option Instr}
    (h : s.accessing count effect = .next t) (hDT : (effect s).DT = s.DT) (hST : (effect s).ST = s.ST) :
    s.TimersKept t ran := by
  obtain ⟨-, faults⟩ | ⟨-, -, effects⟩ := s.accessing_cases count effect
  · cases faults.symm.trans h
    exact .of_eq rfl rfl
  · cases effects.symm.trans h
    exact .of_eq hDT hST

/-- A key skip keeps the timers, as does its fault. -/
theorem State.timersKept_withKey_skipIf {x : RegNum} {cond : Bool → Bool} {ran : Option Instr}
    (h : s.withKey x (fun down u => u.skipIf (cond down)) = .next t) : s.TimersKept t ran := by
  obtain ⟨-, faults⟩ | ⟨-, skips⟩ := s.withKey_cases x fun down u => u.skipIf (cond down)
  · cases faults.symm.trans h
    exact .of_eq rfl rfl
  · cases skips.symm.trans h
    exact .of_eq rfl rfl

theorem timersKept_execRet {ran : Option Instr} (h : execRet s = .next t) : s.TimersKept t ran := by
  cases popped : s.pop? with
  | none =>
    rw [execRet, popped] at h
    cases h
    exact .of_eq rfl rfl
  | some top =>
    rw [execRet, popped] at h
    cases h
    obtain ⟨-, -, frame⟩ := State.pop?_eq_some popped
    rw [frame]
    exact .of_eq rfl rfl

theorem timersKept_execCall {nnn : Addr} {ran : Option Instr} (h : execCall nnn s = .next t) :
    s.TimersKept t ran := by
  cases pushed : s.push? (s.pc + 2) with
  | none =>
    rw [execCall, pushed] at h
    cases h
    exact .of_eq rfl rfl
  | some u =>
    rw [execCall, pushed] at h
    cases h
    obtain ⟨-, rfl⟩ := State.push?_eq_some pushed
    exact .of_eq (State.warnLowTarget_DT _ nnn) (State.warnLowTarget_ST _ nnn)

/-- No instruction but `Fx15` writes the delay timer, and none but `Fx18` the sound timer (10_state.md R14). -/
theorem timersKept_exec {i : Instr} (h : exec i s = .next t) : s.TimersKept t (some i) := by
  cases i with
  | ldDTVx x =>
    cases h
    exact ⟨fun other => absurd rfl (other x), fun _ => rfl⟩
  | ldSTVx x =>
    cases h
    exact ⟨fun _ => rfl, fun other => absurd rfl (other x)⟩
  | ret => exact timersKept_execRet h
  | call nnn => exact timersKept_execCall h
  | jp nnn =>
    cases h
    exact .of_eq (s.warnLowTarget_DT nnn) (s.warnLowTarget_ST nnn)
  | skp x => exact State.timersKept_withKey_skipIf (cond := id) h
  | sknp x => exact State.timersKept_withKey_skipIf (cond := not) h
  | drw x y n => exact State.timersKept_accessing (show execDrw x y n s = _ from h) rfl rfl
  | ldB x => exact State.timersKept_accessing (show execLdB x s = _ from h) rfl rfl
  | storeRegs x => exact State.timersKept_accessing (show execStoreRegs x s = _ from h) rfl rfl
  | loadRegs x => exact State.timersKept_accessing (show execLoadRegs x s = _ from h) rfl rfl
  | cls | jpV0 nnn | ldI nnn | rnd x kk | seImm x kk | sneImm x kk | ldImm x kk | addImm x kk | seReg x y | sneReg x y
  | ldReg x y | orReg x y | andReg x y | xorReg x y | addReg x y | subReg x y | shrReg x y | subnReg x y | shlReg x y
  | ldVxDT x | ldVxK x | addI x | ldF x =>
    cases h
    exact .of_eq rfl rfl

theorem State.timersKept_waitCycle (s : State) {ran : Option Instr} : s.TimersKept s.waitCycle ran := by
  obtain ⟨-, same⟩ | ⟨k, -, -, -, stored⟩ := s.waitCycle_cases
  · rw [same]
    exact .of_eq rfl rfl
  · rw [stored]
    exact .of_eq rfl rfl

/-- A `CYCLE` writes a timer by the instruction at `pc` or not at all. -/
theorem timersKept_cycle {supply : State → State} (hDT : (supply s).DT = s.DT) (hST : (supply s).ST = s.ST)
    (h : cycle supply s = .next t) : s.TimersKept t (decodeWord s.fetchWord) := by
  obtain ⟨-, halted⟩ | ⟨-, -, waits⟩ | ⟨-, -, -, faults⟩ | ⟨-, -, -, -, rejects⟩ | ⟨-, -, -, i, decoded, runs⟩ :=
    cycle_cases supply s
  · cases halted.symm.trans h
    exact .of_eq rfl rfl
  · cases waits.symm.trans h
    exact s.timersKept_waitCycle
  · cases faults.symm.trans h
    exact .of_eq rfl rfl
  · cases rejects.symm.trans h
    exact .of_eq rfl rfl
  · have kept := timersKept_exec (runs.symm.trans h)
    rw [decoded]
    split at kept
    · rwa [State.TimersKept, hDT, hST] at kept
    · exact kept

theorem timersKept_step_of_cycleNext {rest : List Command} (hc : s.CycleNext rest) (h : step s = .next t) :
    s.TimersKept t (decodeWord s.fetchWord) := by
  obtain ⟨supply, supplied, hstep⟩ := step_of_cycleNext hc
  obtain ⟨b, n, hb⟩ := supplied { s with commands := rest }
  exact timersKept_cycle (s := { s with commands := rest }) (by rw [hb]) (by rw [hb]) (hstep.symm.trans h)

/-- A step that performs neither `TICK` nor `RESET` writes a timer by the instruction at `pc` or not at all. -/
theorem timersKept_step (h : step s = .next t) (not_tick : ∀ rest, s.commands ≠ .tick :: rest)
    (not_reset : ∀ image o1 o2 rest, s.commands ≠ .reset image o1 o2 :: rest) :
    s.TimersKept t (decodeWord s.fetchWord) := by
  obtain ⟨hc, -⟩ | ⟨c, rest, hc, performs⟩ := step_cases s
  · exact timersKept_step_of_cycleNext (.inl ⟨hc, rfl⟩) h
  · cases c with
    | tick => exact absurd hc (not_tick rest)
    | reset image o1 o2 => exact absurd hc (not_reset image o1 o2 rest)
    | cycle r => exact timersKept_step_of_cycleNext (.inr ⟨r, hc⟩) h
    | setKeys k =>
      cases performs.symm.trans h
      exact .of_eq rfl rfl
    | readDisplay | readStatus =>
      cases performs.symm.trans h
      exact .of_eq rfl rfl

/-! ### The obligation -/

/-- Settles O39: a `TICK` is `State.tick`, whose decrement is `toNat_timer_decrement`; any other step but `RESET` keeps
the timers by `timersKept_step`. -/
theorem tickDecrementsBothTimers : Obligations.TickDecrementsBothTimers := by
  unfold Obligations.TickDecrementsBothTimers
  refine ⟨fun s rest hc => ?tick, fun s t h not_tick not_reset => ?others⟩
  case tick => exact ⟨_, step_of_tick hc, toNat_timer_decrement s.DT, toNat_timer_decrement s.ST, rfl⟩
  case others => exact timersKept_step h not_tick not_reset

end Sys2Proof.Machine
end

section
/-! PROOF. The encoder and the decoder are inverse to each other (30_encoding.md R61 to R66): the decoder reads each
pattern of R66 back, every word that a row of the opcode table selects is such a pattern, and the words no row selects
are those of R68. -/

namespace Sys2Proof

/-! ### The words of the remaining instructions -/

theorem decodeWord_ret : decodeWord 0x00EE#16 = some .ret := by decide

theorem decodeWord_call (nnn : Addr) : decodeWord (0x2#4 ++ nnn) = some (.call nnn) := by
  simp [decodeWord]

theorem decodeWord_jpV0 (nnn : Addr) : decodeWord (0xB#4 ++ nnn) = some (.jpV0 nnn) := by
  simp [decodeWord]

theorem decodeWord_rnd (x : RegNum) (kk : Byte) : decodeWord (0xC#4 ++ x ++ kk) = some (.rnd x kk) := by
  simp [decodeWord]

theorem decodeWord_drw (x y : RegNum) (n : Nibble) : decodeWord (0xD#4 ++ x ++ y ++ n) = some (.drw x y n) := by
  simp [decodeWord]

theorem decodeWord_addReg (x y : RegNum) : decodeWord (0x8#4 ++ x ++ y ++ 0x4#4) = some (.addReg x y) := by
  rw [decodeWord_alu]; simp [decodeAlu]

theorem decodeWord_subReg (x y : RegNum) : decodeWord (0x8#4 ++ x ++ y ++ 0x5#4) = some (.subReg x y) := by
  rw [decodeWord_alu]; simp [decodeAlu]

theorem decodeWord_shrReg (x y : RegNum) : decodeWord (0x8#4 ++ x ++ y ++ 0x6#4) = some (.shrReg x y) := by
  rw [decodeWord_alu]; simp [decodeAlu]

theorem decodeWord_subnReg (x y : RegNum) : decodeWord (0x8#4 ++ x ++ y ++ 0x7#4) = some (.subnReg x y) := by
  rw [decodeWord_alu]; simp [decodeAlu]

theorem decodeWord_shlReg (x y : RegNum) : decodeWord (0x8#4 ++ x ++ y ++ 0xE#4) = some (.shlReg x y) := by
  rw [decodeWord_alu]; simp [decodeAlu]

/-- A word of the `E` group is decoded by its low byte (30_encoding.md R68). -/
theorem decodeWord_key (x : RegNum) (kk : Byte) : decodeWord (0xE#4 ++ x ++ kk) = decodeKey (0xE#4 ++ x ++ kk) := by
  simp [decodeWord]

theorem decodeWord_skp (x : RegNum) : decodeWord (0xE#4 ++ x ++ 0x9E#8) = some (.skp x) := by
  rw [decodeWord_key]; simp [decodeKey]

theorem decodeWord_sknp (x : RegNum) : decodeWord (0xE#4 ++ x ++ 0xA1#8) = some (.sknp x) := by
  rw [decodeWord_key]; simp [decodeKey]

theorem decodeWord_ldVxDT (x : RegNum) : decodeWord (0xF#4 ++ x ++ 0x07#8) = some (.ldVxDT x) := by
  rw [decodeWord_misc]; simp [decodeMisc]

theorem decodeWord_ldDTVx (x : RegNum) : decodeWord (0xF#4 ++ x ++ 0x15#8) = some (.ldDTVx x) := by
  rw [decodeWord_misc]; simp [decodeMisc]

theorem decodeWord_ldSTVx (x : RegNum) : decodeWord (0xF#4 ++ x ++ 0x18#8) = some (.ldSTVx x) := by
  rw [decodeWord_misc]; simp [decodeMisc]

theorem decodeWord_ldVxK (x : RegNum) : decodeWord (0xF#4 ++ x ++ 0x0A#8) = some (.ldVxK x) := by
  rw [decodeWord_misc]; simp [decodeMisc]

theorem decodeWord_addI (x : RegNum) : decodeWord (0xF#4 ++ x ++ 0x1E#8) = some (.addI x) := by
  rw [decodeWord_misc]; simp [decodeMisc]

theorem decodeWord_ldB (x : RegNum) : decodeWord (0xF#4 ++ x ++ 0x33#8) = some (.ldB x) := by
  rw [decodeWord_misc]; simp [decodeMisc]

theorem decodeWord_storeRegs (x : RegNum) : decodeWord (0xF#4 ++ x ++ 0x55#8) = some (.storeRegs x) := by
  rw [decodeWord_misc]; simp [decodeMisc]

theorem decodeWord_loadRegs (x : RegNum) : decodeWord (0xF#4 ++ x ++ 0x65#8) = some (.loadRegs x) := by
  rw [decodeWord_misc]; simp [decodeMisc]

/-- The decoder reads every pattern of R66 back. -/
theorem decodeWord_encode (i : Instr) : decodeWord (encode i) = some i := by
  cases i with
  | cls => exact decodeWord_cls
  | ret => exact decodeWord_ret
  | jp nnn => exact decodeWord_jp nnn
  | call nnn => exact decodeWord_call nnn
  | seImm x kk => exact decodeWord_seImm x kk
  | sneImm x kk => exact decodeWord_sneImm x kk
  | seReg x y => exact decodeWord_seReg x y
  | sneReg x y => exact decodeWord_sneReg x y
  | ldImm x kk => exact decodeWord_ldImm x kk
  | addImm x kk => exact decodeWord_addImm x kk
  | ldReg x y => exact decodeWord_ldReg x y
  | orReg x y => exact decodeWord_orReg x y
  | andReg x y => exact decodeWord_andReg x y
  | xorReg x y => exact decodeWord_xorReg x y
  | addReg x y => exact decodeWord_addReg x y
  | subReg x y => exact decodeWord_subReg x y
  | shrReg x y => exact decodeWord_shrReg x y
  | subnReg x y => exact decodeWord_subnReg x y
  | shlReg x y => exact decodeWord_shlReg x y
  | ldI nnn => exact decodeWord_ldI nnn
  | jpV0 nnn => exact decodeWord_jpV0 nnn
  | rnd x kk => exact decodeWord_rnd x kk
  | drw x y n => exact decodeWord_drw x y n
  | skp x => exact decodeWord_skp x
  | sknp x => exact decodeWord_sknp x
  | ldVxDT x => exact decodeWord_ldVxDT x
  | ldDTVx x => exact decodeWord_ldDTVx x
  | ldSTVx x => exact decodeWord_ldSTVx x
  | ldVxK x => exact decodeWord_ldVxK x
  | addI x => exact decodeWord_addI x
  | ldF x => exact decodeWord_ldF x
  | ldB x => exact decodeWord_ldB x
  | storeRegs x => exact decodeWord_storeRegs x
  | loadRegs x => exact decodeWord_loadRegs x

/-- Settles O1: the word by `decodeWord_encode`; the two bytes are the halves of that word. -/
theorem decodeOfEncodeIsTheInstruction : Obligations.DecodeOfEncodeIsTheInstruction := by
  unfold Obligations.DecodeOfEncodeIsTheInstruction
  intro i
  refine ⟨decodeWord_encode i, decode_pair _ _ [] i ?_⟩
  rw [wordOfBytes_halves]
  exact decodeWord_encode i

/-! ### A word that a row selects is the encoding of an instruction of that row -/

section

variable {op : Word} {m : String}

/-- A row that fixes the major nibble alone: the word is that nibble above its address operand. -/
theorem OpcodeRow.eq_addr_of_selects {c : Nibble} (h : OpcodeRow.selects ⟨m, 0xF000#16, c ++ 0#12⟩ op = true) :
    c ++ op.nnn = op := by
  have major : op.n1 = c := by
    have e := congrArg Word.n1 (eq_of_beq h)
    rwa [and_majorMask, Word.n1_addr, Word.n1_addr] at e
  apply BitVec.eq_of_toNat_eq
  rw [Word.toNat_addr, ← major, Word.toNat_n1, Word.toNat_nnn]
  omega

/-- The address operand is a register number above an immediate. -/
theorem Word.nnn_eq_regByte (op : Word) (c : Nibble) : (c ++ op.nnn : BitVec (4 + 12)) = c ++ op.x ++ op.kk := by
  apply BitVec.eq_of_toNat_eq
  rw [Word.toNat_addr, Word.toNat_regByte, Word.toNat_nnn, Word.toNat_x, Word.toNat_kk]
  omega

/-- The address operand is three nibbles. -/
theorem Word.nnn_eq_nibbles (op : Word) (c : Nibble) :
    (c ++ op.nnn : BitVec (4 + 12)) = c ++ op.x ++ op.y ++ op.n := by
  apply BitVec.eq_of_toNat_eq
  rw [Word.toNat_addr, Word.toNat_nibbles, Word.toNat_nnn, Word.toNat_x, Word.toNat_y, Word.toNat_n]
  omega

theorem OpcodeRow.eq_regByte_of_selects {c : Nibble} (h : OpcodeRow.selects ⟨m, 0xF000#16, c ++ 0#12⟩ op = true) :
    c ++ op.x ++ op.kk = op :=
  (op.nnn_eq_regByte c).symm.trans (eq_addr_of_selects h)

theorem OpcodeRow.eq_sprite_of_selects {c : Nibble} (h : OpcodeRow.selects ⟨m, 0xF000#16, c ++ 0#12⟩ op = true) :
    c ++ op.x ++ op.y ++ op.n = op :=
  (op.nnn_eq_nibbles c).symm.trans (eq_addr_of_selects h)

/-- A row that fixes the first and the last nibble: the word has the two register numbers between them. -/
theorem OpcodeRow.eq_nibbles_of_selects {c n : Nibble}
    (h : OpcodeRow.selects ⟨m, 0xF00F#16, c ++ 0#4 ++ 0#4 ++ n⟩ op = true) : c ++ op.x ++ op.y ++ n = op := by
  have e := eq_of_beq h
  rw [and_nibbleMask] at e
  have major : op.n1 = c := by simpa using congrArg Word.n1 e
  have low : op.n = n := by simpa using congrArg Word.n e
  apply BitVec.eq_of_toNat_eq
  rw [Word.toNat_nibbles, ← major, ← low, Word.toNat_n1, Word.toNat_x, Word.toNat_y, Word.toNat_n]
  omega

/-- A row that fixes the major nibble and the low byte: the word has the register number between them. -/
theorem OpcodeRow.eq_byte_of_selects {c : Nibble} {k : Byte}
    (h : OpcodeRow.selects ⟨m, 0xF0FF#16, c ++ 0#4 ++ k⟩ op = true) : c ++ op.x ++ k = op := by
  have e := eq_of_beq h
  rw [and_byteMask] at e
  have major : op.n1 = c := by simpa using congrArg Word.n1 e
  have low : op.kk = k := by simpa using congrArg Word.kk e
  apply BitVec.eq_of_toNat_eq
  rw [Word.toNat_regByte, ← major, ← low, Word.toNat_n1, Word.toNat_x, Word.toNat_kk]
  omega

/-- A row that fixes every bit. -/
theorem OpcodeRow.eq_value_of_selects {v : Word} (h : OpcodeRow.selects ⟨m, 0xFFFF#16, v⟩ op = true) : v = op := by
  have mask : op &&& 0xFFFF#16 = op := BitVec.and_allOnes
  exact (eq_of_beq h).symm.trans mask

open OpcodeRow

theorem exists_encode_of_controlRows : ∀ row ∈ controlRows, row.selects op = true → ∃ i, encode i = op := by
  simp only [controlRows, List.forall_mem_cons]
  exact ⟨fun h => ⟨.cls, eq_value_of_selects h⟩, fun h => ⟨.ret, eq_value_of_selects h⟩,
    fun h => ⟨.jp op.nnn, eq_addr_of_selects h⟩, fun h => ⟨.call op.nnn, eq_addr_of_selects h⟩,
    fun h => ⟨.seImm op.x op.kk, eq_regByte_of_selects h⟩, fun h => ⟨.sneImm op.x op.kk, eq_regByte_of_selects h⟩,
    fun h => ⟨.seReg op.x op.y, eq_nibbles_of_selects h⟩, fun h => ⟨.sneReg op.x op.y, eq_nibbles_of_selects h⟩,
    List.forall_mem_nil _⟩

theorem exists_encode_of_registerRows : ∀ row ∈ registerRows, row.selects op = true → ∃ i, encode i = op := by
  simp only [registerRows, List.forall_mem_cons]
  exact ⟨fun h => ⟨.ldImm op.x op.kk, eq_regByte_of_selects h⟩, fun h => ⟨.addImm op.x op.kk, eq_regByte_of_selects h⟩,
    fun h => ⟨.ldReg op.x op.y, eq_nibbles_of_selects h⟩, fun h => ⟨.orReg op.x op.y, eq_nibbles_of_selects h⟩,
    fun h => ⟨.andReg op.x op.y, eq_nibbles_of_selects h⟩, fun h => ⟨.xorReg op.x op.y, eq_nibbles_of_selects h⟩,
    fun h => ⟨.addReg op.x op.y, eq_nibbles_of_selects h⟩, fun h => ⟨.subReg op.x op.y, eq_nibbles_of_selects h⟩,
    fun h => ⟨.shrReg op.x op.y, eq_nibbles_of_selects h⟩, fun h => ⟨.subnReg op.x op.y, eq_nibbles_of_selects h⟩,
    fun h => ⟨.shlReg op.x op.y, eq_nibbles_of_selects h⟩, List.forall_mem_nil _⟩

theorem exists_encode_of_indexRows : ∀ row ∈ indexRows, row.selects op = true → ∃ i, encode i = op := by
  simp only [indexRows, List.forall_mem_cons]
  exact ⟨fun h => ⟨.ldI op.nnn, eq_addr_of_selects h⟩, fun h => ⟨.jpV0 op.nnn, eq_addr_of_selects h⟩,
    fun h => ⟨.rnd op.x op.kk, eq_regByte_of_selects h⟩, fun h => ⟨.drw op.x op.y op.n, eq_sprite_of_selects h⟩,
    List.forall_mem_nil _⟩

theorem exists_encode_of_keyTimerMemoryRows :
    ∀ row ∈ keyTimerMemoryRows, row.selects op = true → ∃ i, encode i = op := by
  simp only [keyTimerMemoryRows, List.forall_mem_cons]
  exact ⟨fun h => ⟨.skp op.x, eq_byte_of_selects h⟩, fun h => ⟨.sknp op.x, eq_byte_of_selects h⟩,
    fun h => ⟨.ldVxDT op.x, eq_byte_of_selects h⟩, fun h => ⟨.ldDTVx op.x, eq_byte_of_selects h⟩,
    fun h => ⟨.ldSTVx op.x, eq_byte_of_selects h⟩, fun h => ⟨.ldVxK op.x, eq_byte_of_selects h⟩,
    fun h => ⟨.addI op.x, eq_byte_of_selects h⟩, fun h => ⟨.ldF op.x, eq_byte_of_selects h⟩,
    fun h => ⟨.ldB op.x, eq_byte_of_selects h⟩, fun h => ⟨.storeRegs op.x, eq_byte_of_selects h⟩,
    fun h => ⟨.loadRegs op.x, eq_byte_of_selects h⟩, List.forall_mem_nil _⟩

/-- Every word that a row of the opcode table selects is the encoding of an instruction. -/
theorem exists_encode_of_selects {row : OpcodeRow} (mem : row ∈ opcodeTable) (h : row.selects op = true) :
    ∃ i, encode i = op := by
  obtain ((mem | mem) | mem) | mem : ((row ∈ controlRows ∨ row ∈ registerRows) ∨ row ∈ indexRows) ∨
      row ∈ keyTimerMemoryRows := by simpa only [opcodeTable, List.mem_append] using mem
  · exact exists_encode_of_controlRows row mem h
  · exact exists_encode_of_registerRows row mem h
  · exact exists_encode_of_indexRows row mem h
  · exact exists_encode_of_keyTimerMemoryRows row mem h

/-- A word the decoder accepts is the encoding of the answer: its row selects the word, so the word is the encoding of
some instruction, which the decoder reads back. -/
theorem encode_of_decodeWord {i : Instr} (h : decodeWord op = some i) : encode i = op := by
  obtain ⟨j, rfl⟩ := exists_encode_of_selects i.row_mem_opcodeTable (row_selects_of_decodeWord h)
  rw [decodeWord_encode] at h
  cases h
  rfl

/-- A word that a row of the table selects is decoded. -/
theorem exists_decodeWord_of_selects {row : OpcodeRow} (mem : row ∈ opcodeTable) (h : row.selects op = true) :
    ∃ i, decodeWord op = some i := by
  obtain ⟨i, rfl⟩ := exists_encode_of_selects mem h
  exact ⟨i, decodeWord_encode i⟩

end

/-- Settles O2 by `encode_of_decodeWord`. -/
theorem encodeOfDecodeIsTheWord : Obligations.EncodeOfDecodeIsTheWord := by
  unfold Obligations.EncodeOfDecodeIsTheWord
  exact fun op i => encode_of_decodeWord

/-! ### The rows do not overlap -/

/-- Two rows that agree on the bits both of them fix are the same row: the 34 rows are compared pair by pair. -/
theorem opcodeTable_separated : ∀ r ∈ opcodeTable, ∀ q ∈ opcodeTable,
    r.value &&& q.mask = q.value &&& r.mask → r = q :=
  of_decide_eq_true rfl

theorem opcodeTable_nodup : opcodeTable.Nodup := of_decide_eq_true rfl

/-- A word is selected by at most one row. -/
theorem OpcodeRow.eq_of_selects {op : Word} {r q : OpcodeRow} (hr : r ∈ opcodeTable) (hq : q ∈ opcodeTable)
    (selr : r.selects op = true) (selq : q.selects op = true) : r = q := by
  refine opcodeTable_separated r hr q hq ?_
  rw [← eq_of_beq selr, ← eq_of_beq selq, BitVec.and_assoc, BitVec.and_assoc, BitVec.and_comm r.mask]

/-- Settles O3: the row of the answer selects the word and no second row does; without an answer no row does. -/
theorem decodeSelectsTheOneTableRow : Obligations.DecodeSelectsTheOneTableRow := by
  unfold Obligations.DecodeSelectsTheOneTableRow
  intro op
  cases decoded : decodeWord op with
  | none =>
    refine List.filter_eq_nil_iff.mpr fun row mem selects => ?_
    obtain ⟨i, hi⟩ := exists_decodeWord_of_selects mem selects
    rw [decoded] at hi
    cases hi
  | some i =>
    have selected : i.row.selects op = true := row_selects_of_decodeWord decoded
    have only_row : opcodeTable.filter (·.selects op) = opcodeTable.filter (· == i.row) := by
      refine List.filter_congr fun row mem => ?_
      rw [Bool.eq_iff_iff, beq_iff_eq]
      refine ⟨fun sel => OpcodeRow.eq_of_selects mem i.row_mem_opcodeTable sel selected, ?_⟩
      rintro rfl
      exact selected
    rw [only_row, List.filter_beq, opcodeTable_nodup.count, if_pos i.row_mem_opcodeTable]
    rfl

/-! ### The unrecognized words, group by group -/

section

variable {op : Word}

theorem Word.nnn_eq_iff (a : Addr) : op.nnn = a ↔ op.toNat % 4096 = a.toNat := by
  rw [← BitVec.toNat_inj, Word.toNat_nnn]

theorem Word.kk_eq_iff (k : Byte) : op.kk = k ↔ op.toNat % 256 = k.toNat := by
  rw [← BitVec.toNat_inj, Word.toNat_kk]

theorem Word.n_eq_iff (n : Nibble) : op.n = n ↔ op.toNat % 16 = n.toNat := by
  rw [← BitVec.toNat_inj, Word.toNat_n]

theorem decodeSystem_eq_none : decodeSystem op = none ↔ op.toNat % 4096 ≠ 0x0E0 ∧ op.toNat % 4096 ≠ 0x0EE := by
  simp only [decodeSystem, Word.nnn_eq_iff]
  split_ifs with cls ret
  · simp [cls]
  · simp [ret]
  · exact iff_of_true rfl ⟨cls, ret⟩

theorem decodeAlu_eq_none : decodeAlu op = none ↔ op.toNat % 16 ∈ [0x8, 0x9, 0xA, 0xB, 0xC, 0xD, 0xF] := by
  rw [decodeAlu, Word.toNat_n]
  have := Nat.mod_lt op.toNat (show 16 > 0 by decide)
  generalize op.toNat % 16 = n at *
  interval_cases n <;> simp

theorem decodeKey_eq_none : decodeKey op = none ↔ op.toNat % 256 ∉ [0x9E, 0xA1] := by
  simp only [decodeKey, Word.kk_eq_iff]
  split_ifs with skp sknp
  · simp [skp]
  · simp [sknp]
  · exact iff_of_true rfl (by simpa using ⟨skp, sknp⟩)

theorem decodeMisc_eq_none :
    decodeMisc op = none ↔ op.toNat % 256 ∉ [0x07, 0x0A, 0x15, 0x18, 0x1E, 0x29, 0x33, 0x55, 0x65] := by
  rw [decodeMisc, Word.toNat_kk]
  split <;> simp_all

end

/-- Settles O4: the major nibble picks the group, and each group's own lemma says which of its words it rejects. -/
theorem unrecognizedWordsEnumerated : Obligations.UnrecognizedWordsEnumerated := by
  unfold Obligations.UnrecognizedWordsEnumerated
  intro op
  rw [decodeWord, Word.toNat_n1]
  split
  case h_1 system =>
    have whole : op.toNat % 4096 = op.toNat := by omega
    rw [decodeSystem_eq_none, whole]
    simp [system]
  case h_6 major => simp [Word.n_eq_iff, major]
  case h_9 alu => rw [decodeAlu_eq_none]; simp [alu]
  case h_10 major => simp [Word.n_eq_iff, major]
  case h_15 key => rw [decodeKey_eq_none]; simp [key]
  case h_16 =>
    have misc : op.toNat / 4096 = 0xF := by
      have := op.isLt
      simp only [imp_false] at *
      omega
    rw [decodeMisc_eq_none]
    simp [misc]
  all_goals
    rename_i major
    simp [major]

/-- Settles O5: words without operands by computation, the others as instances of the patterns the decoder reads. -/
theorem sampleWordsDecode : Obligations.SampleWordsDecode := by
  unfold Obligations.SampleWordsDecode
  exact ⟨decodeWord_cls, decodeWord_call 0xABC, decodeWord_seImm 0xA 0x5C, decodeWord_subnReg 0x1 0xE,
    decodeWord_drw 0x1 0x2 0xF, decodeWord_sknp 0x7, decodeWord_loadRegs 0x9, by decide⟩

end Sys2Proof
end

section
/-! PROOF. The `CYCLE` that fetches, the fetch fault and the halted `CYCLE` (30_encoding.md R60, R64; 60_exceptions.md
R134, R137). -/

namespace Sys2Proof

/-- Two bytes decode to an instruction only when the word they make does. -/
theorem decodeWord_of_decode_pair {b1 b2 : Byte} {rest : List Byte} {i : Instr}
    (h : decode (b1 :: b2 :: rest) = .ok (i, rest)) : decodeWord (wordOfBytes b1 b2) = some i := by
  cases decoded : decodeWord (wordOfBytes b1 b2) with
  | none => simp [decode, decoded] at h
  | some j =>
    rw [decode_pair b1 b2 rest j decoded] at h
    cases h
    rfl

end Sys2Proof

namespace Sys2Proof.Machine

section

variable {s : State} {supply : State → State} {rest : List Command} {i : Instr}

/-! ### Which instructions draw -/

theorem drawsRandom_eq_false (h : ∀ x kk, i ≠ .rnd x kk) : drawsRandom i = false := by
  cases i with
  | rnd x kk => exact absurd rfl (h x kk)
  | _ => rfl

/-! ### The four things a `CYCLE` can be -/

theorem cycle_of_halted (hh : s.halted = true) : cycle supply s = .next s := by
  simp [cycle, hh]

theorem cycle_of_pc_out_of_range (hh : s.halted = false) (ha : s.awaiting = false)
    (hp : Config.lastFetch < s.pc.toNat) : cycle supply s = .next (s.raise .pcOutOfRange s.pc.toNat) := by
  rw [cycle, hh, ha, if_neg Bool.false_ne_true, if_neg Bool.false_ne_true, if_pos hp]

/-- A `CYCLE` that fetches a recognized word runs its instruction, which finds the random operand if it draws. -/
theorem cycle_of_decoded (hh : s.halted = false) (ha : s.awaiting = false) (hp : s.pc.toNat ≤ Config.lastFetch)
    (decoded : decodeWord s.fetchWord = some i) : cycle supply s = exec i (if drawsRandom i then supply s else s) := by
  rw [cycle, hh, ha, if_neg Bool.false_ne_true, if_neg Bool.false_ne_true, if_neg (Nat.not_lt.mpr hp), execute, decoded]

theorem cycle_of_decoded_not_drawing (hh : s.halted = false) (ha : s.awaiting = false)
    (hp : s.pc.toNat ≤ Config.lastFetch) (decoded : decodeWord s.fetchWord = some i) (hi : ∀ x kk, i ≠ .rnd x kk) :
    cycle supply s = exec i s := by
  rw [cycle_of_decoded hh ha hp decoded, drawsRandom_eq_false hi, if_neg Bool.false_ne_true]

theorem cycle_of_decoded_rnd {x : RegNum} {kk : Byte} (hh : s.halted = false) (ha : s.awaiting = false)
    (hp : s.pc.toNat ≤ Config.lastFetch) (decoded : decodeWord s.fetchWord = some (.rnd x kk)) :
    cycle supply s = exec (.rnd x kk) (supply s) := by
  rw [cycle_of_decoded hh ha hp decoded, drawsRandom, if_pos rfl]

/-! ### The `CYCLE` a step performs -/

theorem step_of_no_command (hc : s.commands = []) : step s = cycle State.drawRnd s := by
  simp [step, performNext, hc]

theorem step_of_cycle {r : Byte} (hc : s.commands = .cycle r :: rest) :
    step s = cycle (State.setRnd r) { s with commands := rest } := step_of_command hc

end

/-! ### The obligations -/

/-- Settles O6: the step is a `CYCLE`, and the instruction finds the supplied operand exactly when it is `Cxkk`. -/
theorem stepRunsTheDecodedInstruction : Obligations.StepRunsTheDecodedInstruction := by
  unfold Obligations.StepRunsTheDecodedInstruction
  intro s i bytes hh ha hp
  have decoded : decodeWord s.fetchWord = some i := decodeWord_of_decode_pair bytes
  refine ⟨fun hc => ?free, fun r rest hc => ?asked⟩
  case free =>
    rw [step_of_no_command hc]
    refine ⟨cycle_of_decoded_not_drawing hh ha hp decoded, ?_⟩
    rintro ⟨x, kk, rfl⟩
    exact cycle_of_decoded_rnd hh ha hp decoded
  case asked =>
    rw [step_of_cycle hc]
    refine ⟨cycle_of_decoded_not_drawing (s := { s with commands := rest }) hh ha hp decoded, ?_⟩
    rintro ⟨x, kk, rfl⟩
    exact cycle_of_decoded_rnd (s := { s with commands := rest }) hh ha hp decoded

/-- Settles O8: neither the supply of the operand nor the commands that wait enter the fault. -/
theorem fetchOutOfRangeHalts : Obligations.FetchOutOfRangeHalts := by
  unfold Obligations.FetchOutOfRangeHalts
  intro s rest hc hh ha hp
  obtain ⟨supply, -, hstep⟩ := step_of_cycleNext hc
  exact hstep.trans (cycle_of_pc_out_of_range (s := { s with commands := rest }) hh ha hp)

/-- Settles O9 by `cycle_of_halted`. -/
theorem haltedCycleChangesNothing : Obligations.HaltedCycleChangesNothing := by
  unfold Obligations.HaltedCycleChangesNothing
  intro s rest hh hc
  obtain ⟨supply, -, hstep⟩ := step_of_cycleNext hc
  exact hstep.trans (cycle_of_halted (s := { s with commands := rest }) hh)

end Sys2Proof.Machine
end

section
/-! PROOF. The instructions that write a register and the flag, and the random byte (41_load_alu.md R96 to R104): each
is `writeRegFlag` of its result and its flag, which writes `V[x]`, then `VF`, and advances. -/

namespace Sys2Proof.Machine

/-! ### The results and the flags -/

/-- The difference modulo 256 (41_load_alu.md R103). -/
theorem subWithBorrow_fst (a b : Byte) :
    (subWithBorrow a b).1 = BitVec.ofNat 8 ((256 + a.toNat - b.toNat) % 256) := by
  apply BitVec.eq_of_toNat_eq
  have := b.isLt
  simp only [subWithBorrow, BitVec.toNat_sub, BitVec.toNat_ofNat]
  omega

/-- No borrow is the flag of a subtraction (41_load_alu.md R97, R100). -/
theorem not_subWithBorrow_snd (a b : Byte) : (!(subWithBorrow a b).2) = decide (b.toNat ≤ a.toNat) := by
  simp [subWithBorrow, ← decide_not]

theorem shiftRightOut_fst (v : Byte) : (shiftRightOut v).1 = BitVec.ofNat 8 (v.toNat / 2) := by
  apply BitVec.eq_of_toNat_eq
  have := v.isLt
  simp only [shiftRightOut, BitVec.toNat_ushiftRight, BitVec.toNat_ofNat, Nat.shiftRight_eq_div_pow]
  omega

theorem shiftRightOut_snd (v : Byte) : (shiftRightOut v).2 = decide (v.toNat % 2 = 1) := by
  simp [shiftRightOut, BitVec.getLsbD, Nat.testBit_zero]

theorem shiftLeftOut_fst (v : Byte) : (shiftLeftOut v).1 = BitVec.ofNat 8 (v.toNat * 2 % 256) := by
  apply BitVec.eq_of_toNat_eq
  simp [shiftLeftOut, Nat.shiftLeft_eq]

/-- The bit that a left shift pushes out is the top bit. -/
theorem shiftLeftOut_snd (v : Byte) : (shiftLeftOut v).2 = decide (128 ≤ v.toNat) := by
  have top : v.msb = decide (2 ^ 7 ≤ v.toNat) := BitVec.msb_eq_decide v
  rwa [BitVec.msb_eq_getLsbD_last] at top

section

variable (s : State) (x y : RegNum)

/-! ### Writing a register and then the flag -/

/-- The flag is written last, so it is what remains in `VF`, also when `x = 15` (41_load_alu.md R98). -/
theorem State.flaggedWritten_setRegFlag_advance (b : Byte) (f : Bool) :
    s.FlaggedWritten (s.setRegFlag x b f).advance x b f := by
  refine ⟨Regs.read_write_self _ VF _, fun hx => ?result, fun r hrx hrf => ?others⟩
  case result => exact (Regs.read_write_of_ne _ _ hx).trans (Regs.read_write_self s.V x b)
  case others => exact (Regs.read_write_of_ne _ _ hrf).trans (Regs.read_write_of_ne s.V b hrx)

/-- What `writeRegFlag` does, with its frame. -/
theorem writeRegFlag_effect (b : Byte) (f : Bool) :
    ∃ t, writeRegFlag x b f s = .next t ∧ s.FlaggedWritten t x b f ∧ t = { s with V := t.V, pc := s.pc + 2 } :=
  ⟨(s.setRegFlag x b f).advance, rfl, s.flaggedWritten_setRegFlag_advance x b f, rfl⟩

/-! ### The meanings -/

theorem exec_addReg : exec (.addReg x y) s =
    writeRegFlag x (addWithCarry (s.reg x) (s.reg y)).1 (addWithCarry (s.reg x) (s.reg y)).2 s := rfl

theorem exec_subReg : exec (.subReg x y) s =
    writeRegFlag x (subWithBorrow (s.reg x) (s.reg y)).1 (!(subWithBorrow (s.reg x) (s.reg y)).2) s := rfl

theorem exec_subnReg : exec (.subnReg x y) s =
    writeRegFlag x (subWithBorrow (s.reg y) (s.reg x)).1 (!(subWithBorrow (s.reg y) (s.reg x)).2) s := rfl

theorem exec_shrReg : exec (.shrReg x y) s =
    writeRegFlag x (shiftRightOut (s.shiftOperand x y)).1 (shiftRightOut (s.shiftOperand x y)).2 s := rfl

theorem exec_shlReg : exec (.shlReg x y) s =
    writeRegFlag x (shiftLeftOut (s.shiftOperand x y)).1 (shiftLeftOut (s.shiftOperand x y)).2 s := rfl

theorem exec_rnd (kk : Byte) : exec (.rnd x kk) s = writeReg x (s.rnd &&& kk) s := rfl

end

/-! ### The obligations -/

/-- Settles O13: each of the three is `writeRegFlag` of its result and its flag. -/
theorem addAndSubtractSetTheFlag : Obligations.AddAndSubtractSetTheFlag := by
  unfold Obligations.AddAndSubtractSetTheFlag
  intro s x y
  refine ⟨?add, ?sub, ?subn⟩
  case add =>
    rw [exec_addReg, addWithCarry_fst]
    exact writeRegFlag_effect s x _ _
  case sub =>
    rw [exec_subReg, subWithBorrow_fst, not_subWithBorrow_snd]
    exact writeRegFlag_effect s x _ _
  case subn =>
    rw [exec_subnReg, subWithBorrow_fst, not_subWithBorrow_snd]
    exact writeRegFlag_effect s x _ _

/-- Settles O14: both are `writeRegFlag` of the shifted operand and the bit out. -/
theorem shiftsTakeTheOptionsOperand : Obligations.ShiftsTakeTheOptionsOperand := by
  unfold Obligations.ShiftsTakeTheOptionsOperand
  intro s x y
  refine ⟨?right, ?left⟩
  case right =>
    rw [exec_shrReg, shiftRightOut_fst, shiftRightOut_snd]
    exact writeRegFlag_effect s x _ _
  case left =>
    rw [exec_shlReg, shiftLeftOut_fst, shiftLeftOut_snd]
    exact writeRegFlag_effect s x _ _

/-- Settles O15: the flag of `8xy4` and the sums of `8xy4` and `7xkk` are those of `AddWithCarry`. -/
theorem addWithCarryLaw : Obligations.AddWithCarryLaw := by
  unfold Obligations.AddWithCarryLaw
  refine ⟨fun a b => Prod.ext (addWithCarry_fst a b) rfl, fun s x y => ?reg, fun s x kk => ?imm⟩
  case reg =>
    obtain ⟨t, runs, ⟨flag, result, -⟩, -⟩ := writeRegFlag_effect s x _ _
    exact ⟨t, (exec_addReg s x y).trans runs, result, flag⟩
  case imm =>
    obtain ⟨t, runs, ⟨result, -⟩, -⟩ := writeReg_effect s x _
    exact ⟨t, (exec_addImm s x kk).trans runs, result⟩

/-- The difference of the numbers modulo 256, as the integer remainder (41_load_alu.md R103). -/
theorem subWithBorrow_fst_eq_ofInt (a b : Byte) :
    (subWithBorrow a b).1 = BitVec.ofInt 8 (((a.toNat : Int) - b.toNat) % 256) := by
  apply BitVec.eq_of_toNat_eq
  have := b.isLt
  rw [subWithBorrow_fst, BitVec.toNat_ofNat, BitVec.toNat_ofInt]
  omega

/-- The flag byte of a subtraction is the complement of the borrow. -/
theorem ite_not_borrow (borrow : Bool) : (if !borrow then 1 else 0 : Byte) = if borrow then 0 else 1 := by
  cases borrow <;> rfl

/-- Settles O16: both subtractions store the difference and the complement of the borrow of `SubWithBorrow`. -/
theorem subWithBorrowLaw : Obligations.SubWithBorrowLaw := by
  unfold Obligations.SubWithBorrowLaw
  refine ⟨fun a b => Prod.ext (subWithBorrow_fst_eq_ofInt a b) rfl, fun s x y => ?sub, fun s x y => ?subn⟩
  case sub =>
    obtain ⟨t, runs, ⟨flag, result, -⟩, -⟩ := writeRegFlag_effect s x _ _
    exact ⟨t, (exec_subReg s x y).trans runs, result, flag.trans (ite_not_borrow _)⟩
  case subn =>
    obtain ⟨t, runs, ⟨flag, result, -⟩, -⟩ := writeRegFlag_effect s x _ _
    exact ⟨t, (exec_subnReg s x y).trans runs, result, flag.trans (ite_not_borrow _)⟩

/-- Settles O17: `Cxkk` is `writeReg` of the masked operand, and `CYCLE(r)` puts `r` in the operand's place. -/
theorem randomByteIsMasked : Obligations.RandomByteIsMasked := by
  unfold Obligations.RandomByteIsMasked
  refine ⟨fun s x kk => ?exec, fun s x kk r rest hc hh ha hp decoded => ?step⟩
  case exec =>
    rw [exec_rnd]
    exact writeReg_effect s x _
  case step =>
    rw [step_of_cycle hc, cycle_of_decoded_rnd (s := { s with commands := rest }) hh ha hp decoded, exec_rnd]
    exact writeReg_effect (State.setRnd r { s with commands := rest }) x (r &&& kk)

end Sys2Proof.Machine
end

section
/-! PROOF. The call, the return and the indexed jump (40_control_flow.md R80, R82, R87). -/

namespace Sys2Proof.Machine

/-- The state after `Push(v)` where there is room (10_state.md R16). -/
def State.pushed (v : Word) (s : State) (room : s.depth.val < 16) : State :=
  { s with stack := s.stack.set s.depth.val v room, depth := ⟨s.depth.val + 1, by omega⟩ }

section

variable {s : State}

/-! ### The two outcomes of a call -/

theorem State.push?_of_room (v : Word) (room : s.depth.val < 16) : s.push? v = some (s.pushed v room) := by
  rw [State.push?, dif_pos room, State.pushed]

theorem exec_call_of_room (nnn : Addr) (room : s.depth.val < 16) :
    exec (.call nnn) s = .next { s.pushed (s.pc + 2) room with
      pc := nnn.zeroExtend 16, output := (s.warnLowTarget nnn).output } := by
  show execCall nnn s = _
  rw [execCall, State.push?_of_room _ room, State.warnLowTarget_output]
  dsimp only
  rw [State.warnLowTarget_frame, State.warnLowTarget_output]
  rfl

theorem exec_call_of_full (nnn : Addr) (full : s.depth.val = 16) :
    exec (.call nnn) s = .next (s.raise .stackOverflow s.pc.toNat) := by
  show execCall nnn s = _
  rw [execCall, State.push?_eq_none.mpr full]

/-! ### The two outcomes of a return -/

theorem exec_ret_of_saved {v : Word} (saved : 0 < s.depth.val)
    (top : s.stack[s.depth.val - 1]'(by have := s.depth.isLt; omega) = v) :
    exec .ret s = .next { s with pc := v, depth := ⟨s.depth.val - 1, by have := s.depth.isLt; omega⟩ } := by
  subst top
  show execRet s = _
  rw [execRet, State.pop?, dif_neg (Nat.pos_iff_ne_zero.mp saved)]
  rfl

theorem exec_ret_of_empty (empty : s.depth.val = 0) :
    exec .ret s = .next (s.raise .stackUnderflow s.pc.toNat) := by
  show execRet s = _
  rw [execRet, State.pop?_eq_none.mpr empty]

end

/-! ### The indexed jump -/

/-- A 12-bit address and a byte add up within 16 bits (40_control_flow.md R87). -/
theorem toNat_indexed_target (nnn : Addr) (b : Byte) :
    (nnn.zeroExtend 16 + b.zeroExtend 16).toNat = nnn.toNat + b.toNat := by
  have := nnn.isLt
  have := b.isLt
  have base : (nnn.zeroExtend 16).toNat = nnn.toNat := BitVec.toNat_setWidth_of_le (by decide)
  have offset : (b.zeroExtend 16).toNat = b.toNat := BitVec.toNat_setWidth_of_le (by decide)
  rw [BitVec.toNat_add, base, offset]
  omega

theorem exec_jpV0 (nnn : Addr) (s : State) :
    exec (.jpV0 nnn) s = .next (s.setPc (nnn.zeroExtend 16 + (s.reg 0).zeroExtend 16)) := rfl

/-! ### The obligations -/

/-- Settles O20: the sum fits in `pc`, and `State.setPc` changes nothing else. -/
theorem indexedJumpAddsV0 : Obligations.IndexedJumpAddsV0 := by
  unfold Obligations.IndexedJumpAddsV0
  intro s nnn
  exact ⟨_, exec_jpV0 nnn s, toNat_indexed_target nnn (s.reg 0), rfl⟩

/-- Settles O21: with room the call is a push, the low-target diagnostic and the jump; the full stack faults. -/
theorem callSavesTheReturnAddress : Obligations.CallSavesTheReturnAddress := by
  unfold Obligations.CallSavesTheReturnAddress
  intro s nnn
  refine ⟨fun room => ⟨_, exec_call_of_room nnn room, ?target, rfl, ?slot, fun k hk => ?others, ?reports, rfl⟩,
    exec_call_of_full nnn⟩
  case target => exact BitVec.toNat_setWidth_of_le (by decide)
  case slot => exact Vector.getElem_set_self room
  case others => exact Vector.getElem_set_ne room k.isLt (Ne.symm hk)
  case reports =>
    have info : nnn.zeroExtend 16 = BitVec.ofNat 16 nnn.toNat := (BitVec.ofNat_toNat 16 nnn).symm
    rw [State.warnLowTarget_output, info]

/-- Settles O22 by the two outcomes of a return. -/
theorem returnPopsTheLastAddress : Obligations.ReturnPopsTheLastAddress := by
  unfold Obligations.ReturnPopsTheLastAddress
  exact fun s => ⟨fun saved => ⟨_, exec_ret_of_saved saved rfl, rfl, rfl, rfl⟩, exec_ret_of_empty⟩

/-- Settles O23: the return pops the slot the call has just written, and the call wrote no slot below it. -/
theorem callThenReturnComesBack : Obligations.CallThenReturnComesBack := by
  unfold Obligations.CallThenReturnComesBack
  intro s nnn room
  have back : (s.stack.set s.depth.val (s.pc + 2) room)[s.depth.val] = s.pc + 2 := Vector.getElem_set_self room
  refine ⟨_, _, exec_call_of_room nnn room, exec_ret_of_saved (Nat.succ_pos _) back, rfl, fun k hk => ?kept, rfl⟩
  case kept => exact Vector.getElem_set_ne room k.isLt (Nat.ne_of_gt hk)

end Sys2Proof.Machine
end

section
/-! PROOF. The index register and memory (42_index_memory.md R106 to R111): an access inside memory has its effect, one
that leaves it faults, and what `Fx55` and `Fx33` store is what the fetches that follow find (20_memory.md R52). -/

namespace Sys2Proof.Machine

section

variable {s : State}

/-! ### An access is in memory or it faults -/

theorem State.accessFaults_iff {count : Nat} : s.accessFaults count = true ↔ ¬ s.InMemory count := by
  rw [State.accessFaults, Bool.and_eq_true, decide_eq_true_iff, decide_eq_true_iff]
  simp only [State.lastAccess, State.InMemory, Config.lastAddr]
  omega

theorem State.accessing_of_inMemory {count : Nat} (h : s.InMemory count) (effect : State → State) :
    s.accessing count effect = .next (effect s) := by
  rw [State.accessing, if_neg (by rwa [State.accessFaults_iff, not_not])]

theorem State.accessing_of_not_inMemory {count : Nat} (h : ¬ s.InMemory count) (effect : State → State) :
    s.accessing count effect = .next (s.raise .addressOutOfRange (s.lastAccess count)) := by
  rw [State.accessing, if_pos (State.accessFaults_iff.mpr h)]

/-- An access to at least one byte leaves memory when its last address does. -/
theorem State.not_inMemory_succ {k : Nat} (high : 0xFFF < s.I.toNat + k) : ¬ s.InMemory (k + 1) := by
  simp only [State.InMemory]
  omega

/-! ### The effects of the accesses that are in memory -/

theorem exec_ldB_of_inMemory (x : RegNum) (h : s.InMemory 3) :
    exec (.ldB x) s = .next { s with
      memory := Memory.storeDigits (s.reg x) s.I.toNat s.memory, pc := s.pc + 2 } := by
  show execLdB x s = _
  rw [execLdB, State.accessing_of_inMemory h]
  rfl

theorem exec_storeRegs_of_inMemory (x : RegNum) (h : s.InMemory (x.toNat + 1)) :
    exec (.storeRegs x) s = .next { s with
      memory := Memory.storeRegs s.V s.I.toNat (x.toNat + 1) s.memory, I := (s.saveAdvance x).I, pc := s.pc + 2 } := by
  show execStoreRegs x s = _
  rw [execStoreRegs, State.accessing_of_inMemory h]
  rfl

theorem exec_loadRegs_of_inMemory (x : RegNum) (h : s.InMemory (x.toNat + 1)) :
    exec (.loadRegs x) s = .next { s with
      V := Regs.loadFrom s.memory s.I.toNat (x.toNat + 1) s.V, I := (s.saveAdvance x).I, pc := s.pc + 2 } := by
  show execLoadRegs x s = _
  rw [execLoadRegs, State.accessing_of_inMemory h]
  rfl

theorem exec_addI (x : RegNum) :
    exec (.addI x) s = .next (s.setI (s.I + (s.reg x).zeroExtend 16)).advance := rfl

/-- `I` goes on by the option, and does not wrap after an access in memory (42_index_memory.md R110, R111). -/
theorem State.toNat_saveAdvance_I (x : RegNum) (h : s.InMemory (x.toNat + 1)) :
    (s.saveAdvance x).I.toNat = if s.opt.savingIncreasesRegI then s.I.toNat + x.toNat + 1 else s.I.toNat := by
  have := x.isLt
  have fits : s.I.toNat + (x.toNat + 1) ≤ 0x1000 := h.resolve_left (Nat.succ_ne_zero _)
  rw [State.saveAdvance_I]
  split
  · rw [BitVec.toNat_add, BitVec.toNat_ofNat]
    omega
  · rfl

/-- The register numbers up to `x` are the offsets of the block of `x + 1` bytes. -/
theorem State.byteAfterStore_of_le {x r : RegNum} (h : r.toNat ≤ x.toNat) :
    s.byteAfterStore x (s.I.toNat + r.toNat) = s.reg r := by
  rw [State.byteAfterStore, if_pos (by omega), Nat.add_sub_cancel_left, BitVec.ofNat_toNat, BitVec.setWidth_eq]

theorem State.byteAfterStore_outside {x : RegNum} {a : Nat} (h : a < s.I.toNat ∨ s.I.toNat + x.toNat + 1 ≤ a) :
    s.byteAfterStore x a = s.byteAt a := by
  rw [State.byteAfterStore, if_neg (by omega)]

/-- `Fx65` reads the block for the registers up to `x`. -/
theorem Regs.read_loadFrom_block (x r : RegNum) (m : Memory) (base : Nat) (V : Regs) :
    (Regs.loadFrom m base (x.toNat + 1) V).read r =
      if r.toNat ≤ x.toNat then Memory.read m (base + r.toNat) else V.read r := by
  rw [Regs.read_loadFrom m base V r x.isLt]
  simp only [Nat.lt_succ_iff]

/-! ### Fetching after a store -/

/-- Every fetch reads memory as it is: nothing is prefetched (20_memory.md R52). -/
theorem State.fetchesFind_of_read {byte : Nat → Byte} (hh : s.halted = false) (ha : s.awaiting = false)
    (h : ∀ a, Memory.read s.memory a = byte a) : s.FetchesFind byte := by
  have later : ∀ (u : State) (rest : List Command), u.memory = s.memory → u.Fetching rest →
      u.RunsWord rest (wordOfBytes (byte u.pc.toNat) (byte (u.pc.toNat + 1))) := by
    intro u rest hm hf
    rw [← h, ← h, ← hm]
    exact runsWord_of_fetching hf
  exact ⟨fun rest hc hp => later s rest rfl ⟨hc, hh, ha, hp⟩, later⟩

/-- A fetching `CYCLE` runs the instruction at `pc` on the state with the command taken. -/
theorem step_of_fetching {rest : List Command} {i : Instr} (hf : s.Fetching rest)
    (decoded : decodeWord s.fetchWord = some i) (hi : ∀ x kk, i ≠ .rnd x kk) :
    step s = exec i { s with commands := rest } :=
  (runsWord_of_fetching hf).1 i decoded hi

end

/-- After a fetch the advance of `pc` does not wrap (30_encoding.md R65). -/
theorem toNat_pc_advance {pc : Word} (h : pc.toNat ≤ Config.lastFetch) : (pc + 2).toNat = pc.toNat + 2 := by
  simp only [Config.lastFetch] at h
  bv_omega

/-! ### The obligations -/

/-- Settles O25: the addition of `BitVec` is modulo 65536. -/
theorem indexAddWraps : Obligations.IndexAddWraps := by
  unfold Obligations.IndexAddWraps
  intro s x
  refine ⟨_, exec_addI x, ?sum, s.setI_advance_frame _⟩
  case sum =>
    have width : ((s.reg x).zeroExtend 16).toNat = (s.reg x).toNat := BitVec.toNat_setWidth_of_le (by decide)
    rw [State.advance_I, State.setI_I, BitVec.toNat_add, width]

/-- Settles O26: the bytes after `Memory.storeDigits`. -/
theorem decimalDigitsAreStored : Obligations.DecimalDigitsAreStored := by
  unfold Obligations.DecimalDigitsAreStored
  intro s x wf inside
  have top : s.I.toNat + 2 < Config.memorySize := by
    simp only [State.InMemory, Config.memorySize] at *
    omega
  have byte_bound := (s.reg x).isLt
  obtain ⟨hundreds, tens, ones⟩ := Memory.read_storeDigits (s.reg x) wf top
  refine ⟨_, exec_ldB_of_inMemory x inside, ?_, ?_, ?_, fun a outside => ?_, rfl⟩
  · rw [State.byteAt, hundreds, BitVec.toNat_ofNat]; omega
  · rw [State.byteAt, tens, BitVec.toNat_ofNat]; omega
  · rw [State.byteAt, ones, BitVec.toNat_ofNat]; omega
  · exact Memory.read_storeDigits_outside _ _ _ outside

/-- Settles O27: the bytes after the store are `State.byteAfterStore`. -/
theorem registersAreStored : Obligations.RegistersAreStored := by
  unfold Obligations.RegistersAreStored
  intro s x wf inside
  have stored := State.read_storeRegs wf (inside.resolve_left (Nat.succ_ne_zero _))
  refine ⟨_, exec_storeRegs_of_inMemory x inside, fun r hr => ?block, fun a outside => ?others,
    State.toNat_saveAdvance_I x inside, rfl⟩
  case block => exact (stored _).trans (State.byteAfterStore_of_le hr)
  case others => exact (stored a).trans (State.byteAfterStore_outside outside)

/-- Settles O28: the registers after `Regs.loadFrom`. -/
theorem registersAreLoaded : Obligations.RegistersAreLoaded := by
  unfold Obligations.RegistersAreLoaded
  intro s x inside
  exact ⟨_, exec_loadRegs_of_inMemory x inside, fun r => Regs.read_loadFrom_block x r _ _ _,
    State.toNat_saveAdvance_I x inside, rfl⟩

/-- Settles O29: the load reads the bytes the store left, whatever the register file holds in between. -/
theorem storeThenLoadRoundTrips : Obligations.StoreThenLoadRoundTrips := by
  unfold Obligations.StoreThenLoadRoundTrips
  intro s x wf inside
  have stored := State.read_storeRegs wf (inside.resolve_left (Nat.succ_ne_zero _))
  refine ⟨_, exec_storeRegs_of_inMemory x inside, fun V' =>
    ⟨_, exec_loadRegs_of_inMemory x inside, fun r hr => ?_⟩⟩
  calc
    _ = _ := (Regs.read_loadFrom_block x r _ _ _).trans (if_pos hr)
    _ = s.byteAfterStore x (s.I.toNat + r.toNat) := stored _
    _ = s.reg r := State.byteAfterStore_of_le hr

/-- Settles O30: each of the four is an access that is not in memory. -/
theorem addressOutOfRangeHalts : Obligations.AddressOutOfRangeHalts := by
  unfold Obligations.AddressOutOfRangeHalts
  intro s x y n
  refine ⟨fun hn high => ?draw, fun high => ?digits, fun high => ?store, fun high => ?load⟩
  case draw =>
    have last : s.I.toNat + n.toNat - 1 = s.I.toNat + (n.toNat - 1) := Nat.add_sub_assoc hn _
    have outside := State.not_inMemory_succ (last ▸ high)
    rw [Nat.sub_add_cancel hn] at outside
    rw [last]
    exact show execDrw x y n s = _ from State.accessing_of_not_inMemory outside _
  case digits => exact show execLdB x s = _ from State.accessing_of_not_inMemory (State.not_inMemory_succ high) _
  case store => exact show execStoreRegs x s = _ from State.accessing_of_not_inMemory (State.not_inMemory_succ high) _
  case load => exact show execLoadRegs x s = _ from State.accessing_of_not_inMemory (State.not_inMemory_succ high) _

/-- Settles O31: the step leaves the stored bytes in memory, and every fetch reads memory as it is. -/
theorem storeIsSeenByTheNextFetch : Obligations.StoreIsSeenByTheNextFetch := by
  unfold Obligations.StoreIsSeenByTheNextFetch
  intro s x rest wf hf
  have ⟨_, hh, ha, hp⟩ := hf
  refine ⟨fun decoded inside => ?store, fun decoded inside => ?digits⟩
  case store =>
    have runs : step s = _ := (step_of_fetching hf decoded (fun _ _ => nofun)).trans
      (exec_storeRegs_of_inMemory (s := { s with commands := rest }) x inside)
    have stored := State.read_storeRegs wf (inside.resolve_left (Nat.succ_ne_zero _))
    exact ⟨_, runs, toNat_pc_advance hp, rfl, State.fetchesFind_of_read hh ha stored⟩
  case digits =>
    have runs : step s = _ := (step_of_fetching hf decoded (fun _ _ => nofun)).trans
      (exec_ldB_of_inMemory (s := { s with commands := rest }) x inside)
    have stored := State.read_storeDigits wf x (inside.resolve_left (Nat.succ_ne_zero _))
    exact ⟨_, runs, toNat_pc_advance hp, rfl, State.fetchesFind_of_read hh ha stored⟩

end Sys2Proof.Machine
end

section
/-! PROOF. The draw (43_display.md R116, R117): the sprite's bits are `State.SpriteBit`, each pixel is XORed with its
own, and the flag is the collision. -/

namespace Sys2Proof.Machine

/-- A byte that is not zero has a set bit; its columns are counted from the left. -/
theorem byte_ne_zero_iff (b : Byte) : b ≠ 0 ↔ ∃ col < 8, b.getLsbD (7 - col) = true := by
  constructor
  · intro nonzero
    by_contra no_bit
    refine nonzero (BitVec.eq_of_getLsbD_eq fun i hi => ?_)
    have bit_off : ¬ b.getLsbD (7 - (7 - i)) = true := fun bit => no_bit ⟨7 - i, by omega, bit⟩
    rw [Nat.sub_sub_self (by omega)] at bit_off
    rw [Bool.eq_false_iff.mpr bit_off]
    exact BitVec.getLsbD_zero.symm
  · rintro ⟨col, -, bit⟩ rfl
    exact absurd bit (by simp)

theorem flagByte_eq_one_iff {f : Bool} : flagByte f = 1 ↔ f = true := by
  cases f <;> decide

theorem flagByte_eq_zero_iff {f : Bool} : flagByte f = 0 ↔ f = false := by
  cases f <;> decide

section

variable {s : State} {x y : RegNum} {n : Nibble}

/-! ### The bits of the sprite -/

/-- The laws of Laws/Display.lean speak of `spriteSets`; the statements of `State.SpriteBit`. -/
theorem State.spriteBit_iff {px : Fin 64} {py : Fin 32} :
    s.SpriteBit x y n px py ↔
      spriteSets s.memory s.I.toNat (s.reg x).toNat (s.reg y).toNat n.toNat px py = true := by
  simp only [State.SpriteBit, spriteSets, rowSets, decide_eq_true_eq, Fin.ext_iff, Fin.val_ofNat]
  constructor
  · rintro ⟨row, col, hrow, hcol, bit, hx, hy⟩
    exact ⟨row, hrow, hy, col, hcol, bit, hx⟩
  · rintro ⟨row, hrow, hy, col, hcol, bit, hx⟩
    exact ⟨row, col, hrow, hcol, bit, hx, hy⟩

theorem State.exists_spriteBit_iff :
    (∃ px py, s.SpriteBit x y n px py) ↔ ∃ row < n.toNat, s.byteAt (s.I.toNat + row) ≠ 0 := by
  constructor
  · rintro ⟨px, py, row, col, hrow, hcol, bit, -, -⟩
    exact ⟨row, hrow, (byte_ne_zero_iff _).mpr ⟨col, hcol, bit⟩⟩
  · rintro ⟨row, hrow, nonzero⟩
    obtain ⟨col, hcol, bit⟩ := (byte_ne_zero_iff _).mp nonzero
    exact ⟨Fin.ofNat 64 ((s.reg x).toNat + col), Fin.ofNat 32 ((s.reg y).toNat + row), row, col, hrow, hcol, bit, rfl,
      rfl⟩

/-! ### The drawing -/

/-- A pixel under a set bit of the sprite is flipped. -/
theorem State.pixel_drawSprite_of_spriteBit {px : Fin 64} {py : Fin 32} (bit : s.SpriteBit x y n px py) :
    Display.pixel (s.drawSprite x y n.toNat).screen px py = !s.pixel px py := by
  have drawn := Drawing.pixel_rows s.memory s.I.toNat (s.reg x).toNat (s.reg y).toNat ⟨s.display, false⟩ px py
    (n := n.toNat) (Nat.le_of_lt_succ n.isLt)
  rw [State.spriteBit_iff.mp bit, Bool.xor_true] at drawn
  exact drawn

/-- A pixel under no set bit of the sprite is left alone. -/
theorem State.pixel_drawSprite_of_not_spriteBit {px : Fin 64} {py : Fin 32} (bit : ¬ s.SpriteBit x y n px py) :
    Display.pixel (s.drawSprite x y n.toNat).screen px py = s.pixel px py := by
  have drawn := Drawing.pixel_rows s.memory s.I.toNat (s.reg x).toNat (s.reg y).toNat ⟨s.display, false⟩ px py
    (n := n.toNat) (Nat.le_of_lt_succ n.isLt)
  rw [State.spriteBit_iff, Bool.not_eq_true] at bit
  rw [bit, Bool.xor_false] at drawn
  exact drawn

theorem State.collision_drawSprite_iff :
    (s.drawSprite x y n.toNat).collision = true ↔ ∃ px py, s.pixel px py = true ∧ s.SpriteBit x y n px py := by
  have collides := Drawing.collision_rows s.memory s.I.toNat (s.reg x).toNat (s.reg y).toNat ⟨s.display, false⟩
    (n := n.toNat) (Nat.le_of_lt_succ n.isLt)
  simp only [Bool.false_eq_true, false_or, ← State.spriteBit_iff] at collides
  exact collides

theorem exec_drw_of_inMemory (x y : RegNum) (h : s.InMemory n.toNat) :
    exec (.drw x y n) s = .next { s with
      display := (s.drawSprite x y n.toNat).screen,
      V := s.V.write VF (flagByte (s.drawSprite x y n.toNat).collision),
      pc := s.pc + 2 } := by
  show execDrw x y n s = _
  rw [execDrw, State.accessing_of_inMemory h]
  rfl

/-- What a second draw at the same place starts from: the display of the first, the registers as they were. -/
def State.drawnOver (x y : RegNum) (n : Nibble) (s : State) : State :=
  { s with display := (s.drawSprite x y n.toNat).screen, pc := s.pc + 2 }

/-- Over the drawn display the sprite meets a set pixel where the first draw set one (R117). -/
theorem State.collision_drawSprite_again_iff :
    ((s.drawnOver x y n).drawSprite x y n.toNat).collision = true ↔
      ∃ px py, s.SpriteBit x y n px py ∧ s.pixel px py = false := by
  rw [State.collision_drawSprite_iff]
  refine exists_congr fun px => exists_congr fun py => ?_
  rw [and_comm]
  refine and_congr_right fun bit => ?_
  have flipped := State.pixel_drawSprite_of_spriteBit (s := s) bit
  rw [← Bool.not_eq_true', ← flipped]
  rfl

/-- Drawing over the drawn display gives the first display back: each bit of the sprite flips its pixel twice. -/
theorem State.screen_drawSprite_again : ((s.drawnOver x y n).drawSprite x y n.toNat).screen = s.display := by
  refine Display.ext_pixel fun px py => ?_
  by_cases bit : s.SpriteBit x y n px py
  · calc
      _ = !(s.drawnOver x y n).pixel px py := State.pixel_drawSprite_of_spriteBit (s := s.drawnOver x y n) bit
      _ = !!s.pixel px py := congrArg Bool.not (State.pixel_drawSprite_of_spriteBit bit)
      _ = s.pixel px py := Bool.not_not _
  · calc
      _ = (s.drawnOver x y n).pixel px py := State.pixel_drawSprite_of_not_spriteBit (s := s.drawnOver x y n) bit
      _ = s.pixel px py := State.pixel_drawSprite_of_not_spriteBit bit

end

/-! ### The obligations -/

/-- Settles O33: each pixel by whether the sprite has a bit for it, the flag by the collision. -/
theorem drawXorsTheSprite : Obligations.DrawXorsTheSprite := by
  unfold Obligations.DrawXorsTheSprite
  intro s x y n inside
  have flag : (s.V.write VF (flagByte (s.drawSprite x y n.toNat).collision)).read VF = _ := Regs.read_write_self _ _ _
  refine ⟨_, exec_drw_of_inMemory x y inside, fun px py => ?pixels, fun meets => ?collides, fun clear => ?misses,
    fun r hr => Regs.read_write_of_ne s.V _ hr, rfl⟩
  case pixels =>
    by_cases bit : s.SpriteBit x y n px py
    · have flipped := State.pixel_drawSprite_of_spriteBit bit
      simp only [bit, not_true_eq_false, and_false, and_true, false_or, ← Bool.not_eq_true', ← flipped]
      rfl
    · have kept := State.pixel_drawSprite_of_not_spriteBit bit
      simp only [bit, not_false_eq_true, and_false, and_true, or_false, ← kept]
      rfl
  case collides => exact flag.trans (flagByte_eq_one_iff.mpr (State.collision_drawSprite_iff.mpr meets))
  case misses =>
    refine flag.trans (flagByte_eq_zero_iff.mpr (Bool.eq_false_iff.mpr fun collides => ?_))
    obtain ⟨px, py, on, bit⟩ := State.collision_drawSprite_iff.mp collides
    exact absurd on (Bool.eq_false_iff.mp (clear px py bit))

/-- Settles O34: the second draw is over the display of the first, and `VF` is its collision. -/
theorem drawingTwiceRestoresTheDisplay : Obligations.DrawingTwiceRestoresTheDisplay := by
  unfold Obligations.DrawingTwiceRestoresTheDisplay
  intro s x y n inside
  refine ⟨_, _, exec_drw_of_inMemory x y inside, exec_drw_of_inMemory x y inside, State.screen_drawSprite_again,
    fun sets => ?collides, fun covered => ?misses, fun clear => ?onClear⟩
  case collides =>
    exact (Regs.read_write_self _ _ _).trans (flagByte_eq_one_iff.mpr (State.collision_drawSprite_again_iff.mpr sets))
  case misses =>
    refine (Regs.read_write_self _ _ _).trans (flagByte_eq_zero_iff.mpr (Bool.eq_false_iff.mpr fun collides => ?_))
    obtain ⟨px, py, bit, off⟩ := State.collision_drawSprite_again_iff.mp collides
    exact absurd (covered px py bit) (Bool.eq_false_iff.mp off)
  case onClear =>
    rw [← State.exists_spriteBit_iff (x := x) (y := y)]
    refine (iff_of_eq (congrArg (· = 1) (Regs.read_write_self _ _ _))).trans (flagByte_eq_one_iff.trans ?_)
    refine State.collision_drawSprite_again_iff.trans ?_
    simp only [clear, and_true]

end Sys2Proof.Machine
end

section
/-! PROOF. The key skips, the timer transfers and the keypress wait (44_keys_timers.md R120 to R126). -/

namespace Sys2Proof.Machine

section

variable {s : State}

/-! ### A key number is valid or it faults -/

theorem State.withKey_of_le {x : RegNum} (h : (s.reg x).toNat ≤ 15) (effect : Bool → State → State) :
    s.withKey x effect = .next (effect (s.key (s.reg x).toNat) s) := by
  rw [State.withKey, if_neg (Nat.not_lt.mpr h)]

theorem State.withKey_of_gt {x : RegNum} (h : 15 < (s.reg x).toNat) (effect : Bool → State → State) :
    s.withKey x effect = .next (s.raise .keyIndexOutOfRange (s.reg x).toNat) := by
  rw [State.withKey, if_pos h]

/-- A skip on the complement of a flag. -/
theorem State.skipIf_not (c : Bool) :
    s.skipIf (!c) = { s with pc := if c = true then s.pc + 2 else s.pc + 4 } := by
  cases c <;> rfl

theorem exec_skp (x : RegNum) : exec (.skp x) s = s.withKey x fun down s => s.skipIf down := rfl

theorem exec_sknp (x : RegNum) : exec (.sknp x) s = s.withKey x fun down s => s.skipIf (!down) := rfl

/-! ### The timers and the wait -/

theorem exec_ldVxDT (x : RegNum) : exec (.ldVxDT x) s = writeReg x s.DT s := rfl

theorem exec_ldDTVx (x : RegNum) : exec (.ldDTVx x) s = .next (s.setDT (s.reg x)).advance := rfl

theorem exec_ldSTVx (x : RegNum) : exec (.ldSTVx x) s = .next (s.setST (s.reg x)).advance := rfl

theorem exec_ldVxK (x : RegNum) : exec (.ldVxK x) s = .next (s.setWait true x).advance := rfl

/-- In the wait state the next `CYCLE` stores the lowest key that is down and ends the wait (R124). -/
theorem step_of_awaiting_key {rest : List Command} {k : Nat} (hc : s.CycleNext rest) (hh : s.halted = false)
    (ha : s.awaiting = true) (down : s.key k = true) (lowest : ∀ j < k, s.key j = false) :
    step s = .next ((State.setReg s.target (BitVec.ofNat 8 k) { s with commands := rest }).setWait false s.target) :=
  (step_of_awaiting hc hh ha).trans
    (congrArg _ (State.waitCycle_of_lowest_key (s := { s with commands := rest }) down lowest))

end

/-! ### The obligations -/

/-- Settles O35: both skips test the flag of a valid key and fault on any other number. -/
theorem keySkipsTestTheKeyFlag : Obligations.KeySkipsTestTheKeyFlag := by
  unfold Obligations.KeySkipsTestTheKeyFlag
  intro s x
  refine ⟨fun valid => ⟨?skp, ?sknp⟩, fun invalid => ⟨?skpFault, ?sknpFault⟩⟩
  case skp => exact (exec_skp x).trans (State.withKey_of_le valid _)
  case sknp => rw [exec_sknp, State.withKey_of_le valid, State.skipIf_not]
  case skpFault => exact (exec_skp x).trans (State.withKey_of_gt invalid _)
  case sknpFault => exact (exec_sknp x).trans (State.withKey_of_gt invalid _)

/-- Settles O36: one `writeReg`, and two transfers that touch their timer and `pc` alone. -/
theorem timerTransfers : Obligations.TimerTransfers := by
  unfold Obligations.TimerTransfers
  intro s x
  refine ⟨?read, exec_ldDTVx x, exec_ldSTVx x⟩
  case read =>
    rw [exec_ldVxDT]
    exact writeReg_effect s x s.DT

/-- Settles O37 by the meaning of `Fx0A`. -/
theorem keyWaitIsEntered : Obligations.KeyWaitIsEntered := by
  unfold Obligations.KeyWaitIsEntered
  exact fun s x => exec_ldVxK x

/-- Settles O38: `Fx0A` enters the wait, and the next step is the wait-state cycle, which finds the key down. -/
theorem keyWaitResolvesByLevel : Obligations.KeyWaitResolvesByLevel := by
  unfold Obligations.KeyWaitResolvesByLevel
  intro s x k hf _ down lowest decoded
  have ⟨_, hh, ha, _⟩ := hf
  have enters : step s = _ := (step_of_fetching hf decoded (fun _ _ => nofun)).trans (exec_ldVxK x)
  have ends : step (State.advance (State.setWait true x { s with commands := [] })) = _ :=
    step_of_awaiting_key (.inl ⟨rfl, rfl⟩) hh rfl down lowest
  refine ⟨_, _, enters, ends, State.regWritten_setReg_setWait _ _ _ _, ?frame⟩
  case frame =>
    cases s
    cases ha
    rfl

end Sys2Proof.Machine
end

section
/-! PROOF. The commands of the host and the state after reset (60_exceptions.md R149 to R152, 70_reset_and_hazards.md
R160, 10_state.md R25). -/

namespace Sys2Proof.Machine

/-! ### The memory `RESET` leaves, region by region -/

section

variable {fontBytes reserved image : List Byte}

theorem Memory.wfFrom_boot_image (hi : image.length = 3584) :
    Memory.wfFrom 0x200 (Memory.ofBytes Config.entryPoint image []) = true :=
  Memory.wfFrom_ofBytes (by simp [hi, Config.memorySize]) rfl

theorem Memory.wfFrom_boot_reserved (hr : reserved.length = 432) (hi : image.length = 3584) :
    Memory.wfFrom 0x050 (Memory.ofBytes 0x050 reserved (Memory.ofBytes Config.entryPoint image [])) = true :=
  Memory.wfFrom_ofBytes (by simp [hr, Config.memorySize]) (by rw [hr]; exact Memory.wfFrom_boot_image hi)

theorem Memory.read_boot_font (hf : fontBytes.length = 80) (hr : reserved.length = 432) (hi : image.length = 3584)
    {k : Nat} (hk : k < 80) : Memory.read (Memory.boot fontBytes reserved image) k = fontBytes.getD k 0 := by
  have inside := Memory.read_ofBytes_inside (base := 0) (bs := fontBytes) (k := k)
    (above := Memory.ofBytes 0x050 reserved (Memory.ofBytes Config.entryPoint image []))
    (by simp [hf, Config.memorySize]) (by rw [hf]; exact Memory.wfFrom_boot_reserved hr hi) (by omega)
  rwa [Nat.zero_add] at inside

theorem Memory.read_boot_reserved (hf : fontBytes.length = 80) (hr : reserved.length = 432)
    (hi : image.length = 3584) {k : Nat} (hk : k < 432) :
    Memory.read (Memory.boot fontBytes reserved image) (0x050 + k) = reserved.getD k 0 := by
  rw [Memory.boot, Memory.read_ofBytes_above (by omega)]
  exact Memory.read_ofBytes_inside (by simp [hr, Config.memorySize])
    (by rw [hr]; exact Memory.wfFrom_boot_image hi) (by omega)

theorem Memory.read_boot_image (hf : fontBytes.length = 80) (hr : reserved.length = 432) (hi : image.length = 3584)
    {k : Nat} (hk : k < 3584) :
    Memory.read (Memory.boot fontBytes reserved image) (0x200 + k) = image.getD k 0 := by
  rw [Memory.boot, Memory.read_ofBytes_above (by omega), Memory.read_ofBytes_above (by omega)]
  exact Memory.read_ofBytes_inside (by simp [hi, Config.memorySize]) rfl (by omega)

end

theorem reservedInit_getD (k : Nat) : reservedInit.getD k 0 = 0 := by
  rw [reservedInit, List.getD_eq_getElem?_getD, List.getElem?_getD_replicate_default_eq]

/-- Above the font an address that memory does not list reads as 0 (20_memory.md R41). -/
theorem Memory.unlisted_eq_zero {a : Nat} (h : 0x050 ≤ a) : Memory.unlisted a = 0 :=
  List.getD_eq_default _ _ (by rwa [font_length])

/-- A register file of zeros. -/
theorem Regs.read_zeros (r : RegNum) : Regs.read (Vector.replicate 16 0) r = 0 :=
  Vector.getElem_replicate r.isLt

/-! ### The commands -/

section

variable {s : State} {rest : List Command}

theorem step_of_setKeys {k : BitVec 16} (hc : s.commands = .setKeys k :: rest) :
    step s = .next (State.setKeys k { s with commands := rest }) := step_of_command hc

theorem step_of_readDisplay (hc : s.commands = .readDisplay :: rest) :
    step s = .next (State.readDisplay { s with commands := rest }) := step_of_command hc

theorem step_of_readStatus (hc : s.commands = .readStatus :: rest) :
    step s = .next (State.readStatus { s with commands := rest }) := step_of_command hc

variable {image : List Byte} {o1 o2 : Bool}

theorem step_of_reset (hc : s.commands = .reset image o1 o2 :: rest) (hi : image.length = 3584) :
    step s = .next (State.construct font reservedInit image o1 o2 { s with commands := rest }) :=
  (step_of_command hc).trans (if_pos hi)

theorem step_of_reset_refused (hc : s.commands = .reset image o1 o2 :: rest) (hi : image.length ≠ 3584) :
    step s = .refused (.imageLength image.length) :=
  (step_of_command hc).trans (if_neg hi)

theorem State.issueTickAndCycle_commands (r : Byte) (hc : s.commands = []) :
    (s.issueTickAndCycle r).commands = .tick :: [.cycle r] := by
  simp [State.issueTickAndCycle, State.issue, hc]

end

/-! ### The obligations -/

/-- Settles O40 by the meaning of `SETKEYS`. -/
theorem setKeysWritesTheFlags : Obligations.SetKeysWritesTheFlags := by
  unfold Obligations.SetKeysWritesTheFlags
  exact fun s k rest hc => ⟨_, step_of_setKeys hc, fun _ _ => rfl, rfl⟩

/-- Settles O41 by the meanings of the two commands. -/
theorem readCommandsOnlyReport : Obligations.ReadCommandsOnlyReport := by
  unfold Obligations.ReadCommandsOnlyReport
  exact fun s rest => ⟨step_of_readDisplay, step_of_readStatus⟩

/-- Settles O42: the oldest of the two commands is the `TICK`. -/
theorem tickComesBeforeCycle : Obligations.TickComesBeforeCycle := by
  unfold Obligations.TickComesBeforeCycle
  intro s r hc
  exact ⟨_, step_of_tick (State.issueTickAndCycle_commands r hc), rfl, toNat_timer_decrement s.DT,
    toNat_timer_decrement s.ST, rfl⟩

/-- Settles O44 by the three regions of the memory `RESET` leaves. -/
theorem bootMemoryHoldsAnyFont : Obligations.BootMemoryHoldsAnyFont := by
  unfold Obligations.BootMemoryHoldsAnyFont
  exact fun s fontBytes reserved image o1 o2 hf hr hi => ⟨Memory.wfFrom_boot hf hr hi,
    fun _ => Memory.read_boot_font hf hr hi, fun _ => Memory.read_boot_reserved hf hr hi,
    fun _ => Memory.read_boot_image hf hr hi⟩

/-- Settles O43: the step is `State.construct`, whose memory holds the bytes given, by O44. -/
theorem resetPutsEveryElementAtItsValue : Obligations.ResetPutsEveryElementAtItsValue := by
  unfold Obligations.ResetPutsEveryElementAtItsValue
  intro s image o1 o2 rest hc hi
  obtain ⟨-, font_bytes, reserved_bytes, image_bytes⟩ := bootMemoryHoldsAnyFont { s with commands := rest }
    font reservedInit image o1 o2 font_length reservedInit_length hi
  exact ⟨_, step_of_reset hc hi, rfl, Regs.read_zeros, rfl, rfl, rfl, rfl, fun k => Vector.getElem_replicate k.isLt,
    Display.pixel_blank, fun k _ => BitVec.getLsbD_zero, rfl, rfl, rfl, rfl, rfl, font_bytes,
    fun k hk => (reserved_bytes k hk).trans (reservedInit_getD k), image_bytes, rfl, rfl⟩

/-- Settles O45 by the one test `RESET` makes. -/
theorem resetRefusesOtherImageLengths : Obligations.ResetRefusesOtherImageLengths := by
  unfold Obligations.ResetRefusesOtherImageLengths
  exact fun s image o1 o2 rest => step_of_reset_refused

/-- Settles O46: memory lists nothing, so it reads as the font below 0x050 and as 0 above. -/
theorem stateAfterReset : Obligations.StateAfterReset := by
  unfold Obligations.StateAfterReset
  exact ⟨rfl, Regs.read_zeros, rfl, rfl, rfl, rfl, fun k => Vector.getElem_replicate k.isLt, Display.pixel_blank,
    fun k _ => BitVec.getLsbD_zero, rfl, rfl, rfl, rfl, rfl, fun k _ => rfl, font_length, rfl, rfl,
    fun a low _ => Memory.unlisted_eq_zero low, fun a low _ => Memory.unlisted_eq_zero (by omega), rfl, rfl⟩

end Sys2Proof.Machine
end

section
/-! PROOF. What an instruction and a step can do, said once as inversions, and the statements about the whole machine
that follow by cases on them (10_state.md R10, R11, R24, R26; 60_exceptions.md R131, R137). -/

namespace Sys2Proof.Machine

/-! ### What an instruction can do -/

/-- `i` writes its result to `V[x]` and no flag. -/
def WritesPlain (i : Instr) (x : RegNum) : Prop :=
  (∃ kk, i = .ldImm x kk ∨ i = .addImm x kk ∨ i = .rnd x kk) ∨
  (∃ y, i = .ldReg x y ∨ i = .orReg x y ∨ i = .andReg x y ∨ i = .xorReg x y) ∨ i = .ldVxDT x

/-- `i` writes its result to `V[x]` and then a flag to `VF`. -/
def WritesFlagged (i : Instr) (x : RegNum) : Prop :=
  ∃ y, i = .addReg x y ∨ i = .subReg x y ∨ i = .shrReg x y ∨ i = .subnReg x y ∨ i = .shlReg x y

/-- `i` loads the index register and does nothing else. -/
def LoadsIndex (i : Instr) : Prop := (∃ nnn, i = .ldI nnn) ∨ ∃ x, i = .addI x ∨ i = .ldF x

/-- `i` can take a fatal fault (60_exceptions.md R130). -/
def CanFault (i : Instr) : Prop :=
  i = .ret ∨ (∃ nnn, i = .call nnn) ∨ (∃ x y n, i = .drw x y n) ∨
    ∃ x, i = .ldB x ∨ i = .storeRegs x ∨ i = .loadRegs x ∨ i = .skp x ∨ i = .sknp x

/-- `Runs i s t`: `t` is a state the instruction `i` can leave of `s`, by the shape of its effect. -/
inductive Runs : Instr → State → State → Prop
  | fault {i s} (f info) (h : CanFault i) : Runs i s (s.raise f info)
  | skip {i s} (c) : Runs i s (s.skipIf c)
  | writeReg {i s} (x b) (h : WritesPlain i x) : Runs i s (s.setReg x b).advance
  | writeRegFlag {i s} (x b f) (h : WritesFlagged i x) : Runs i s (s.setRegFlag x b f).advance
  | loadIndex {i s} (w) (h : LoadsIndex i) : Runs i s (s.setI w).advance
  | cls {s} : Runs .cls s (s.setDisplay Display.blank).advance
  | jp {s} (nnn) : Runs (.jp nnn) s { s with pc := nnn.zeroExtend 16, output := (s.warnLowTarget nnn).output }
  | jpV0 {s} (nnn) : Runs (.jpV0 nnn) s (s.setPc (nnn.zeroExtend 16 + (s.reg 0).zeroExtend 16))
  | call {s} (nnn) (room : s.depth.val < 16) : Runs (.call nnn) s { s.pushed (s.pc + 2) room with
      pc := nnn.zeroExtend 16, output := (s.warnLowTarget nnn).output }
  | ret {s : State} (saved : 0 < s.depth.val) : Runs .ret s { s with
      pc := s.stack[s.depth.val - 1]'(by have := s.depth.isLt; omega),
      depth := ⟨s.depth.val - 1, by have := s.depth.isLt; omega⟩ }
  | ldDTVx {s} (x) : Runs (.ldDTVx x) s (s.setDT (s.reg x)).advance
  | ldSTVx {s} (x) : Runs (.ldSTVx x) s (s.setST (s.reg x)).advance
  | ldVxK {s} (x) : Runs (.ldVxK x) s (s.setWait true x).advance
  | drw {s} (x y n) (inside : s.InMemory n.toNat) : Runs (.drw x y n) s { s with
      display := (s.drawSprite x y n.toNat).screen,
      V := s.V.write VF (flagByte (s.drawSprite x y n.toNat).collision),
      pc := s.pc + 2 }
  | ldB {s} (x) (inside : s.InMemory 3) : Runs (.ldB x) s { s with
      memory := Memory.storeDigits (s.reg x) s.I.toNat s.memory, pc := s.pc + 2 }
  | storeRegs {s} (x) (inside : s.InMemory (x.toNat + 1)) : Runs (.storeRegs x) s { s with
      memory := Memory.storeRegs s.V s.I.toNat (x.toNat + 1) s.memory, I := (s.saveAdvance x).I, pc := s.pc + 2 }
  | loadRegs {s} (x) (inside : s.InMemory (x.toNat + 1)) : Runs (.loadRegs x) s { s with
      V := Regs.loadFrom s.memory s.I.toNat (x.toNat + 1) s.V, I := (s.saveAdvance x).I, pc := s.pc + 2 }

section

variable {s t : State} {i : Instr}

theorem exec_jp_frame (nnn : Addr) :
    exec (.jp nnn) s = .next { s with pc := nnn.zeroExtend 16, output := (s.warnLowTarget nnn).output } := by
  rw [exec_jp]
  exact congrArg (fun u => Host.Outcome.next (State.setPc (nnn.zeroExtend 16) u)) (s.warnLowTarget_frame nnn)

/-- An `I`-relative access is refused by a fault or has its effect. -/
theorem State.accessing_goes_on {count : Nat} {effect : State → State} (h : CanFault i)
    (inside : s.InMemory count → Runs i s (effect s)) : ∃ t, s.accessing count effect = .next t ∧ Runs i s t := by
  by_cases hc : s.InMemory count
  · exact ⟨_, State.accessing_of_inMemory hc effect, inside hc⟩
  · exact ⟨_, State.accessing_of_not_inMemory hc effect, .fault _ _ h⟩

theorem State.withKey_goes_on {x : RegNum} {cond : Bool → Bool} (h : CanFault i) :
    ∃ t, s.withKey x (fun down u => u.skipIf (cond down)) = .next t ∧ Runs i s t := by
  by_cases hx : (s.reg x).toNat ≤ 15
  · exact ⟨_, State.withKey_of_le hx _, .skip _⟩
  · exact ⟨_, State.withKey_of_gt (Nat.not_le.mp hx) _, .fault _ _ h⟩

/-- Every instruction answers with a next state, of the shape `Runs` says. -/
theorem exec_runs (i : Instr) (s : State) : ∃ t, exec i s = .next t ∧ Runs i s t := by
  cases i with
  | cls => exact ⟨_, rfl, .cls⟩
  | ret =>
    rcases Nat.eq_zero_or_pos s.depth.val with empty | saved
    · exact ⟨_, exec_ret_of_empty empty, .fault _ _ (.inl rfl)⟩
    · exact ⟨_, exec_ret_of_saved saved rfl, .ret saved⟩
  | jp nnn => exact ⟨_, exec_jp_frame nnn, .jp nnn⟩
  | call nnn =>
    by_cases room : s.depth.val < 16
    · exact ⟨_, exec_call_of_room nnn room, .call nnn room⟩
    · exact ⟨_, exec_call_of_full nnn (by have := s.depth.isLt; omega), .fault _ _ (.inr (.inl ⟨nnn, rfl⟩))⟩
  | seImm x kk | sneImm x kk => exact ⟨_, rfl, .skip _⟩
  | seReg x y | sneReg x y => exact ⟨_, rfl, .skip _⟩
  | ldImm x kk => exact ⟨_, rfl, .writeReg x _ (.inl ⟨kk, .inl rfl⟩)⟩
  | addImm x kk => exact ⟨_, rfl, .writeReg x _ (.inl ⟨kk, .inr (.inl rfl)⟩)⟩
  | rnd x kk => exact ⟨_, rfl, .writeReg x _ (.inl ⟨kk, .inr (.inr rfl)⟩)⟩
  | ldReg x y => exact ⟨_, rfl, .writeReg x _ (.inr (.inl ⟨y, .inl rfl⟩))⟩
  | orReg x y => exact ⟨_, rfl, .writeReg x _ (.inr (.inl ⟨y, .inr (.inl rfl)⟩))⟩
  | andReg x y => exact ⟨_, rfl, .writeReg x _ (.inr (.inl ⟨y, .inr (.inr (.inl rfl))⟩))⟩
  | xorReg x y => exact ⟨_, rfl, .writeReg x _ (.inr (.inl ⟨y, .inr (.inr (.inr rfl))⟩))⟩
  | ldVxDT x => exact ⟨_, rfl, .writeReg x _ (.inr (.inr rfl))⟩
  | addReg x y => exact ⟨_, rfl, .writeRegFlag x _ _ ⟨y, .inl rfl⟩⟩
  | subReg x y => exact ⟨_, rfl, .writeRegFlag x _ _ ⟨y, .inr (.inl rfl)⟩⟩
  | shrReg x y => exact ⟨_, rfl, .writeRegFlag x _ _ ⟨y, .inr (.inr (.inl rfl))⟩⟩
  | subnReg x y => exact ⟨_, rfl, .writeRegFlag x _ _ ⟨y, .inr (.inr (.inr (.inl rfl)))⟩⟩
  | shlReg x y => exact ⟨_, rfl, .writeRegFlag x _ _ ⟨y, .inr (.inr (.inr (.inr rfl)))⟩⟩
  | ldI nnn => exact ⟨_, rfl, .loadIndex _ (.inl ⟨nnn, rfl⟩)⟩
  | addI x => exact ⟨_, rfl, .loadIndex _ (.inr ⟨x, .inl rfl⟩)⟩
  | ldF x => exact ⟨_, rfl, .loadIndex _ (.inr ⟨x, .inr rfl⟩)⟩
  | jpV0 nnn => exact ⟨_, rfl, .jpV0 nnn⟩
  | ldDTVx x => exact ⟨_, rfl, .ldDTVx x⟩
  | ldSTVx x => exact ⟨_, rfl, .ldSTVx x⟩
  | ldVxK x => exact ⟨_, rfl, .ldVxK x⟩
  | skp x => exact State.withKey_goes_on (cond := id) (by simp [CanFault])
  | sknp x => exact State.withKey_goes_on (cond := not) (by simp [CanFault])
  | drw x y n =>
    exact show ∃ t, execDrw x y n s = _ ∧ _ from State.accessing_goes_on (by simp [CanFault]) (.drw x y n)
  | ldB x => exact show ∃ t, execLdB x s = _ ∧ _ from State.accessing_goes_on (by simp [CanFault]) (.ldB x)
  | storeRegs x =>
    exact show ∃ t, execStoreRegs x s = _ ∧ _ from State.accessing_goes_on (by simp [CanFault]) (.storeRegs x)
  | loadRegs x =>
    exact show ∃ t, execLoadRegs x s = _ ∧ _ from State.accessing_goes_on (by simp [CanFault]) (.loadRegs x)

theorem runs_of_exec (h : exec i s = .next t) : Runs i s t := by
  obtain ⟨u, hu, runs⟩ := exec_runs i s
  cases hu.symm.trans h
  exact runs

theorem drawsRandom_of_canFault (h : CanFault i) : drawsRandom i = false := by
  obtain rfl | ⟨nnn, rfl⟩ | ⟨x, y, n, rfl⟩ | ⟨x, rfl | rfl | rfl | rfl | rfl⟩ := h <;> rfl

/-- An instruction halts the machine only by a fatal fault. -/
theorem Runs.halted_or_raise (h : Runs i s t) :
    t.halted = s.halted ∨ CanFault i ∧ ∃ f info, t = s.raise f info := by
  cases h with
  | fault f info hf => exact .inr ⟨hf, f, info, rfl⟩
  | _ => exact .inl rfl

/-! ### What a step can do -/

/-- The state with the oldest command of the host taken, on which a step performs it. -/
def State.taken (s : State) : State := { s with commands := s.commands.tail }

/-- A function that puts a random operand in place and touches nothing else. -/
def SuppliesOperand (supply : State → State) : Prop := ∀ u, ∃ b n, supply u = { u with rnd := b, rndIndex := n }

theorem State.taken_of_command {c : Command} {rest : List Command} (hc : s.commands = c :: rest) :
    s.taken = { s with commands := rest } := by
  rw [State.taken, hc, List.tail_cons]

/-- What a step can do, beside refusing a `RESET`. -/
theorem next_of_step (h : step s = .next t) :
    (∃ supply, SuppliesOperand supply ∧ cycle supply s.taken = .next t) ∨
    (∃ image o1 o2 rest, s.commands = .reset image o1 o2 :: rest ∧ image.length = 3584 ∧
      t = s.taken.construct font reservedInit image o1 o2) ∨
    t = s.taken.tick ∨ (∃ k, t = s.taken.setKeys k) ∨ ∃ r, t = s.taken.report r := by
  obtain ⟨hc, free⟩ | ⟨c, rest, hc, performs⟩ := step_cases s
  · have same : s.taken = s := by rw [State.taken, hc, List.tail_nil, ← hc]
    exact .inl ⟨State.drawRnd, fun u => ⟨_, _, rfl⟩, by rw [same, ← free, h]⟩
  · rw [← State.taken_of_command hc] at performs
    have outcome := performs.symm.trans h
    cases c with
    | cycle r => exact .inl ⟨State.setRnd r, fun u => ⟨r, u.rndIndex, rfl⟩, outcome⟩
    | reset image o1 o2 =>
      refine .inr (.inl ⟨image, o1, o2, rest, hc, ?_⟩)
      by_cases hi : image.length = Config.imageSize
      · rw [perform, if_pos hi] at outcome
        cases outcome
        exact ⟨hi, rfl⟩
      · rw [perform, if_neg hi] at outcome
        cases outcome
    | tick =>
      cases outcome
      exact .inr (.inr (.inl rfl))
    | setKeys k =>
      cases outcome
      exact .inr (.inr (.inr (.inl ⟨k, rfl⟩)))
    | readDisplay | readStatus =>
      cases outcome
      exact .inr (.inr (.inr (.inr ⟨_, rfl⟩)))

/-- What a `CYCLE` can do. -/
theorem next_of_cycle {supply : State → State} (h : cycle supply s = .next t) :
    (s.halted = true ∧ t = s) ∨ t = s.waitCycle ∨ t = s.raise .pcOutOfRange s.pc.toNat ∨
    (s.pc.toNat ≤ Config.lastFetch ∧ t = s.unrecognized s.fetchWord) ∨
    (s.pc.toNat ≤ Config.lastFetch ∧ ∃ i, Runs i (if drawsRandom i then supply s else s) t) := by
  obtain ⟨hh, e⟩ | ⟨-, -, e⟩ | ⟨-, -, -, e⟩ | ⟨-, -, hp, -, e⟩ | ⟨-, -, hp, i, -, e⟩ := cycle_cases supply s
  · cases e.symm.trans h
    exact .inl ⟨hh, rfl⟩
  · cases e.symm.trans h
    exact .inr (.inl rfl)
  · cases e.symm.trans h
    exact .inr (.inr (.inl rfl))
  · cases e.symm.trans h
    exact .inr (.inr (.inr (.inl ⟨hp, rfl⟩)))
  · exact .inr (.inr (.inr (.inr ⟨hp, i, runs_of_exec (e.symm.trans h)⟩)))

theorem State.waitCycle_halted : s.waitCycle.halted = s.halted := by
  obtain ⟨-, same⟩ | ⟨k, -, -, -, stored⟩ := s.waitCycle_cases
  · rw [same]
  · rw [stored]
    rfl

end

/-! ### The invariant, operation by operation -/

section

variable {s t : State} {i : Instr}

theorem FatalFault.code_legal (f : FatalFault) : f.code.toNat ≤ 5 := by cases f <;> decide

theorem FatalFault.code_ne_zero (f : FatalFault) : f.code ≠ 0 := by cases f <;> decide

theorem State.Inv.raise (inv : s.Inv) (f : FatalFault) (info : Nat) : (s.raise f info).Inv :=
  { inv with
    faultCode_legal := f.code_legal
    faultCode_zero := iff_of_false f.code_ne_zero nofun }

theorem State.Inv.waitCycle (inv : s.Inv) : s.waitCycle.Inv := by
  obtain ⟨-, same⟩ | ⟨k, -, -, -, stored⟩ := s.waitCycle_cases
  · rwa [same]
  · rw [stored]
    exact { inv with }

theorem State.Inv.supplied {supply : State → State} (hs : SuppliesOperand supply) (inv : s.Inv) : (supply s).Inv := by
  obtain ⟨b, n, e⟩ := hs s
  rw [e]
  exact { inv with }

/-- A push of a legal return address keeps the saved addresses legal. -/
theorem State.Inv.saved_le_pushed (inv : s.Inv) {v : Word} (room : s.depth.val < 16) (hv : v.toNat ≤ 0x1000)
    (k : Fin 16) (hk : k.val < (s.pushed v room).depth.val) : ((s.pushed v room).stack[k.val]).toNat ≤ 0x1000 := by
  have slot : (s.pushed v room).stack[k.val] = if s.depth.val = k.val then v else s.stack[k.val] :=
    Vector.getElem_set room k.isLt
  rw [slot]
  split
  case isTrue => exact hv
  case isFalse other =>
    have below : k.val < s.depth.val + 1 := hk
    exact inv.saved_le k (by omega)

theorem toNat_pc_skip {pc : Word} (h : pc.toNat ≤ 0xFFE) : (pc + 4).toNat = pc.toNat + 4 := by
  bv_omega

/-- The targets of the jump and the call are 12 bits wide. -/
theorem toNat_target_le (nnn : Addr) : (nnn.zeroExtend 16).toNat ≤ 0x10FE := by
  have value : (nnn.zeroExtend 16).toNat = nnn.toNat := BitVec.toNat_setWidth_of_le (by decide)
  have := nnn.isLt
  omega

/-- An instruction that was fetched keeps the invariant. -/
theorem Runs.keeps_inv (h : Runs i s t) (hp : s.pc.toNat ≤ 0xFFE) (inv : s.Inv) : t.Inv := by
  have advanced : (s.pc + 2).toNat ≤ 0x10FE := by
    rw [toNat_pc_advance hp]
    omega
  cases h with
  | fault f info => exact inv.raise f info
  | skip c =>
    refine { inv with pc_le := ?_ }
    have skipped : (s.pc + 4).toNat ≤ 0x10FE := by
      rw [toNat_pc_skip hp]
      omega
    cases c
    · exact advanced
    · exact skipped
  | jp nnn => exact { inv with pc_le := toNat_target_le nnn }
  | jpV0 nnn =>
    refine { inv with pc_le := ?_ }
    have sum := toNat_indexed_target nnn (s.reg 0)
    have := nnn.isLt
    have := (s.reg 0).isLt
    rw [State.setPc_pc, sum]
    omega
  | call nnn room =>
    have returns : (s.pc + 2).toNat ≤ 0x1000 := by
      rw [toNat_pc_advance hp]
      omega
    exact { inv with pc_le := toNat_target_le nnn, saved_le := inv.saved_le_pushed room returns }
  | ret saved =>
    have depth_lt := s.depth.isLt
    have top := inv.saved_le ⟨s.depth.val - 1, by omega⟩ (Nat.sub_lt saved Nat.one_pos)
    exact { inv with
      pc_le := Nat.le_trans top (by decide)
      saved_le := fun k hk => inv.saved_le k (Nat.lt_of_lt_of_le hk (Nat.sub_le _ _)) }
  | ldB x inside =>
    have top := inside.resolve_left (by decide)
    exact { inv with pc_le := advanced, memory_wf := Memory.wf_storeDigits _ inv.memory_wf top }
  | storeRegs x inside =>
    have top := inside.resolve_left (Nat.succ_ne_zero _)
    exact { inv with pc_le := advanced, memory_wf := Memory.wf_storeRegs s.V inv.memory_wf top }
  | writeReg | writeRegFlag | loadIndex | cls | ldDTVx | ldSTVx | ldVxK | drw | loadRegs =>
    exact { inv with pc_le := advanced }

theorem State.Inv.unrecognized (inv : s.Inv) (hp : s.pc.toNat ≤ 0xFFE) (op : Word) : (s.unrecognized op).Inv := by
  refine { inv with pc_le := ?_ }
  show (s.pc + 2).toNat ≤ 0x10FE
  rw [toNat_pc_advance hp]
  omega

theorem State.inv_construct {fontBytes reserved image : List Byte} (hf : fontBytes.length = 80)
    (hr : reserved.length = 432) (hi : image.length = 3584) (o1 o2 : Bool) :
    (s.construct fontBytes reserved image o1 o2).Inv where
  pc_le := show (0x200#16).toNat ≤ 0x10FE by decide
  saved_le := fun _ hk => absurd hk (Nat.not_lt_zero _)
  faultCode_legal := Nat.zero_le 5
  faultCode_zero := iff_of_true rfl rfl
  memory_wf := Memory.wfFrom_boot hf hr hi

theorem State.Inv.cycle {supply : State → State} (hs : SuppliesOperand supply) (inv : s.Inv)
    (h : cycle supply s = .next t) : t.Inv := by
  obtain ⟨-, rfl⟩ | rfl | rfl | ⟨hp, rfl⟩ | ⟨hp, i, runs⟩ := next_of_cycle h
  · exact inv
  · exact inv.waitCycle
  · exact inv.raise _ _
  · exact inv.unrecognized hp _
  · split at runs
    · obtain ⟨b, n, e⟩ := hs s
      exact runs.keeps_inv (by rwa [e]) (inv.supplied hs)
    · exact runs.keeps_inv hp inv

end

/-! ### The obligations -/

/-- Settles O47, by cases on what a step can do. -/
theorem everyStepKeepsTheInvariant : Obligations.EveryStepKeepsTheInvariant := by
  unfold Obligations.EveryStepKeepsTheInvariant
  intro s t inv h
  have taken : s.taken.Inv := { inv with }
  obtain ⟨supply, hs, runs⟩ | ⟨image, o1, o2, rest, -, hi, rfl⟩ | rfl | ⟨k, rfl⟩ | ⟨r, rfl⟩ := next_of_step h
  · exact taken.cycle hs runs
  · exact State.inv_construct font_length reservedInit_length hi o1 o2
  · exact { taken with }
  · exact { taken with }
  · exact { taken with }

/-- Settles O48: nothing is saved, no fault is latched, memory lists nothing. -/
theorem resetMeetsTheInvariant : Obligations.ResetMeetsTheInvariant where
  pc_le := by decide
  saved_le := fun _ hk => absurd hk (Nat.not_lt_zero _)
  faultCode_legal := by decide
  faultCode_zero := by decide
  memory_wf := rfl

theorem cycle_goes_on (supply : State → State) (s : State) : ∃ t, cycle supply s = .next t := by
  obtain ⟨-, e⟩ | ⟨-, -, e⟩ | ⟨-, -, -, e⟩ | ⟨-, -, -, -, e⟩ | ⟨-, -, -, i, -, e⟩ := cycle_cases supply s
  · exact ⟨_, e⟩
  · exact ⟨_, e⟩
  · exact ⟨_, e⟩
  · exact ⟨_, e⟩
  · obtain ⟨t, ht, -⟩ := exec_runs i (if drawsRandom i then supply s else s)
    exact ⟨t, e.trans ht⟩

/-- Settles O49: a `CYCLE` and every instruction have a next state, and `RESET` alone can be refused. -/
theorem everyStepGoesOn : Obligations.EveryStepGoesOn := by
  unfold Obligations.EveryStepGoesOn
  intro s right_length
  obtain ⟨-, free⟩ | ⟨c, rest, hc, performs⟩ := step_cases s
  · rw [free]
    exact cycle_goes_on _ s
  · rw [performs]
    cases c with
    | cycle r => exact cycle_goes_on _ _
    | reset image o1 o2 => exact ⟨_, if_pos (right_length image o1 o2 rest hc)⟩
    | tick | readDisplay | readStatus => exact ⟨_, rfl⟩
    | setKeys k => exact ⟨_, rfl⟩

/-- Settles O50: of what a step can do only `State.raise` sets the latch, and no instruction that can fault draws. -/
theorem faultsArePrecise : Obligations.FaultsArePrecise := by
  unfold Obligations.FaultsArePrecise
  intro s t running h halts
  have not_kept : t.halted ≠ s.taken.halted := fun kept => by
    rw [kept] at halts
    exact absurd halts (Bool.eq_false_iff.mp running)
  obtain ⟨supply, hs, cycles⟩ | ⟨image, o1, o2, rest, -, -, rfl⟩ | rfl | ⟨k, rfl⟩ | ⟨r, rfl⟩ := next_of_step h
  · obtain ⟨hh, -⟩ | rfl | rfl | ⟨-, rfl⟩ | ⟨-, i, runs⟩ := next_of_cycle cycles
    · exact absurd hh (Bool.eq_false_iff.mp running)
    · exact absurd State.waitCycle_halted not_kept
    · exact ⟨.pcOutOfRange, s.pc.toNat, rfl⟩
    · exact absurd rfl not_kept
    · obtain ⟨b, n, supplied⟩ := hs s.taken
      obtain kept | ⟨hf, f, info, rfl⟩ := runs.halted_or_raise
      · refine absurd (kept.trans ?_) not_kept
        split
        · rw [supplied]
        · rfl
      · rw [drawsRandom_of_canFault hf, if_neg Bool.false_ne_true]
        exact ⟨f, info, rfl⟩
  · cases halts
  · exact absurd rfl not_kept
  · exact absurd rfl not_kept
  · exact absurd rfl not_kept

/-- Settles O51: while halted a `CYCLE` does nothing, and the other commands write no more than is named. -/
theorem onlyResetLeavesTheHaltedState : Obligations.OnlyResetLeavesTheHaltedState := by
  unfold Obligations.OnlyResetLeavesTheHaltedState
  intro s t hh not_reset h
  obtain ⟨supply, -, cycles⟩ | ⟨image, o1, o2, rest, hc, -⟩ | rfl | ⟨k, rfl⟩ | ⟨r, rfl⟩ := next_of_step h
  · cases (cycle_of_halted (s := s.taken) hh).symm.trans cycles
    rfl
  · exact absurd hc (not_reset image o1 o2 rest)
  · rfl
  · rfl
  · rfl

/-- Settles O52, by cases on the shape of what the instruction does. -/
theorem onlyTheseInstructionsWrite : Obligations.OnlyTheseInstructionsWrite := by
  unfold Obligations.OnlyTheseInstructionsWrite
  intro i s t h
  cases runs_of_exec h with
  | fault f info hf => simpa [CanFault] using fun _ => hf
  | loadIndex w hi =>
    have listed : (∃ nnn, i = .ldI nnn) ∨ ∃ x, i = .addI x ∨ i = .ldF x ∨ i = .storeRegs x ∨ i = .loadRegs x :=
      hi.imp_right fun ⟨x, hx⟩ => ⟨x, hx.imp_right .inl⟩
    simpa using fun _ => listed
  | skip | writeReg | writeRegFlag | cls | jp | jpV0 | call | ret | ldDTVx | ldSTVx | ldVxK | drw | ldB | storeRegs
  | loadRegs => simp [State.pushed]

/-- Settles O53, by cases on the shape of what the instruction does: a register that is not written reads as before. -/
theorem onlyTheDestinationRegisterChanges : Obligations.OnlyTheDestinationRegisterChanges := by
  unfold Obligations.OnlyTheDestinationRegisterChanges
  intro i s t r h changed
  cases runs_of_exec h with
  | writeReg x b plain =>
    by_cases hr : r = x
    · subst hr
      obtain imm | reg | timer := plain
      · exact .inl imm
      · exact .inr (.inl reg)
      · exact .inr (.inr (.inr (.inr (.inl timer))))
    · exact absurd (Regs.read_write_of_ne s.V b hr) changed
  | writeRegFlag x b f flagged =>
    obtain ⟨y, hi⟩ := flagged
    refine .inr (.inr (.inl ⟨x, y, ?_, hi⟩))
    by_contra other
    obtain ⟨hrx, hrf⟩ := not_or.mp other
    exact changed ((s.flaggedWritten_setRegFlag_advance x b f).2.2 r hrx hrf)
  | drw x y n =>
    have written : r = VF := by
      by_contra hr
      exact changed (Regs.read_write_of_ne s.V _ hr)
    exact .inr (.inr (.inr (.inl ⟨written, x, y, n, rfl⟩)))
  | loadRegs x =>
    have written : r.toNat ≤ x.toNat := by
      by_contra hr
      exact changed ((Regs.read_loadFrom_block x r _ _ _).trans (if_neg hr))
    exact .inr (.inr (.inr (.inr (.inr ⟨x, written, rfl⟩))))
  | fault | skip | loadIndex | cls | jp | jpV0 | call | ret | ldDTVx | ldSTVx | ldVxK | ldB | storeRegs =>
    exact absurd rfl changed

end Sys2Proof.Machine
end

section
/-! PROOF. What no instruction, or all but a few, depend on: the random operand, the options and what has been reported
(60_exceptions.md R140, R148; 41_load_alu.md R104; 30_encoding.md R69). The three are altered at once, so that each
instruction is looked at once. -/

namespace Sys2Proof.Machine

/-- `s` with another random operand, other options and other reports. -/
def State.altered (b : Byte) (o : Options) (reports : List Report) (s : State) : State :=
  { s with rnd := b, opt := o, output := reports }

/-- The instructions whose meaning looks at the options (30_encoding.md R69). -/
def readsOptions : Instr → Bool
  | .shrReg _ _ | .shlReg _ _ | .storeRegs _ | .loadRegs _ => true
  | _ => false

/-- A meaning that takes `s` to `t` makes at most one report, and takes the altered `s` to the altered `t`, with the
same report. -/
def TakesAltered (b : Byte) (o : Options) (reports : List Report) (meaning : State → Result) (s t : State) : Prop :=
  ∃ added : List Report, added.length ≤ 1 ∧ t.output = s.output ++ added ∧
    meaning (s.altered b o reports) = .next (t.altered b o (reports ++ added))

/-- What `LowTarget` adds to the reports (60_exceptions.md R142). -/
def lowTargetReports (nnn : Addr) : List Report :=
  if nnn.toNat < 0x200 then [.diagnostic .lowTarget (nnn.zeroExtend 16)] else []

theorem length_lowTargetReports_le (nnn : Addr) : (lowTargetReports nnn).length ≤ 1 := by
  unfold lowTargetReports
  split
  · exact Nat.le_refl 1
  · exact Nat.zero_le 1

theorem State.warnLowTarget_output_append (s : State) (nnn : Addr) :
    (s.warnLowTarget nnn).output = s.output ++ lowTargetReports nnn := by
  rw [State.warnLowTarget_output, lowTargetReports]
  split
  · rfl
  · exact (List.append_nil _).symm

section

variable {b : Byte} {o : Options} {reports : List Report} {s t : State}

theorem TakesAltered.of_silent {meaning : State → Result} (same : t.output = s.output)
    (takes : meaning (s.altered b o reports) = .next (t.altered b o reports)) :
    TakesAltered b o reports meaning s t :=
  ⟨[], Nat.zero_le 1, by rw [same, List.append_nil], by rw [takes, List.append_nil]⟩

theorem TakesAltered.of_raise {meaning : State → Result} {f : FatalFault} {info : Nat}
    (takes : meaning (s.altered b o reports) = .next ((s.altered b o reports).raise f info)) :
    TakesAltered b o reports meaning s (s.raise f info) :=
  ⟨[.fault f info], Nat.le_refl 1, rfl, takes⟩

/-- An `I`-relative access looks at `I` alone to find whether it faults. -/
theorem takesAltered_accessing {count : Nat} {effect : State → State} (h : s.accessing count effect = .next t)
    (silent : (effect s).output = s.output)
    (commutes : effect (s.altered b o reports) = (effect s).altered b o reports) :
    TakesAltered b o reports (fun s => s.accessing count effect) s t := by
  by_cases inside : s.InMemory count
  · cases (State.accessing_of_inMemory inside effect).symm.trans h
    refine .of_silent silent ?_
    rw [← commutes]
    exact State.accessing_of_inMemory (s := s.altered b o reports) inside effect
  · cases (State.accessing_of_not_inMemory inside effect).symm.trans h
    exact .of_raise (State.accessing_of_not_inMemory (s := s.altered b o reports) inside effect)

/-- A key skip looks at a register and the key flags alone. -/
theorem takesAltered_withKey {x : RegNum} {cond : Bool → Bool}
    (h : s.withKey x (fun down u => u.skipIf (cond down)) = .next t) :
    TakesAltered b o reports (fun s => s.withKey x fun down u => u.skipIf (cond down)) s t := by
  by_cases valid : (s.reg x).toNat ≤ 15
  · cases (State.withKey_of_le valid _).symm.trans h
    exact .of_silent rfl (State.withKey_of_le (s := s.altered b o reports) valid _)
  · cases (State.withKey_of_gt (Nat.not_le.mp valid) _).symm.trans h
    exact .of_raise (State.withKey_of_gt (s := s.altered b o reports) (Nat.not_le.mp valid) _)

theorem takesAltered_ret (h : exec .ret s = .next t) : TakesAltered b o reports (exec .ret) s t := by
  rcases Nat.eq_zero_or_pos s.depth.val with empty | saved
  · cases (exec_ret_of_empty empty).symm.trans h
    exact .of_raise (exec_ret_of_empty (s := s.altered b o reports) empty)
  · cases (exec_ret_of_saved saved rfl).symm.trans h
    exact .of_silent rfl (exec_ret_of_saved (s := s.altered b o reports) saved rfl)

theorem takesAltered_jp {nnn : Addr} (h : exec (.jp nnn) s = .next t) :
    TakesAltered b o reports (exec (.jp nnn)) s t := by
  cases (exec_jp_frame nnn).symm.trans h
  refine ⟨lowTargetReports nnn, length_lowTargetReports_le nnn, s.warnLowTarget_output_append nnn, ?_⟩
  rw [exec_jp_frame, State.warnLowTarget_output_append]
  rfl

theorem takesAltered_call {nnn : Addr} (h : exec (.call nnn) s = .next t) :
    TakesAltered b o reports (exec (.call nnn)) s t := by
  by_cases room : s.depth.val < 16
  · cases (exec_call_of_room nnn room).symm.trans h
    refine ⟨lowTargetReports nnn, length_lowTargetReports_le nnn, s.warnLowTarget_output_append nnn, ?_⟩
    rw [exec_call_of_room (s := s.altered b o reports) nnn room, State.warnLowTarget_output_append]
    rfl
  · have full : s.depth.val = 16 := by
      have := s.depth.isLt
      omega
    cases (exec_call_of_full nnn full).symm.trans h
    exact .of_raise (exec_call_of_full (s := s.altered b o reports) nnn full)

/-- Every instruction takes the altered state to the altered outcome, where the operand is altered only for an
instruction that does not draw it and the options only for one that does not look at them. -/
theorem takesAltered_exec {i : Instr} (operand : drawsRandom i = true → s.rnd = b)
    (options : readsOptions i = true → s.opt = o) (h : exec i s = .next t) :
    TakesAltered b o reports (exec i) s t := by
  cases i with
  | ret => exact takesAltered_ret h
  | jp nnn => exact takesAltered_jp h
  | call nnn => exact takesAltered_call h
  | skp x => exact takesAltered_withKey (cond := id) h
  | sknp x => exact takesAltered_withKey (cond := not) h
  | drw x y n => exact takesAltered_accessing (show execDrw x y n s = _ from h) rfl rfl
  | ldB x => exact takesAltered_accessing (show execLdB x s = _ from h) rfl rfl
  | storeRegs x =>
    cases options rfl
    exact takesAltered_accessing (show execStoreRegs x s = _ from h) rfl rfl
  | loadRegs x =>
    cases options rfl
    exact takesAltered_accessing (show execLoadRegs x s = _ from h) rfl rfl
  | shrReg x y | shlReg x y =>
    cases options rfl
    cases h
    exact .of_silent rfl rfl
  | rnd x kk =>
    cases operand rfl
    cases h
    exact .of_silent rfl rfl
  | cls | jpV0 nnn | ldI nnn | seImm x kk | sneImm x kk | ldImm x kk | addImm x kk | seReg x y | sneReg x y | ldReg x y
  | orReg x y | andReg x y | xorReg x y | addReg x y | subReg x y | subnReg x y | ldVxDT x | ldDTVx x | ldSTVx x
  | ldVxK x | addI x | ldF x =>
    cases h
    exact .of_silent rfl rfl

/-- No instruction writes the random operand or the options (O52). -/
theorem exec_keeps_rnd_opt {i : Instr} (h : exec i s = .next t) : t.rnd = s.rnd ∧ t.opt = s.opt := by
  obtain ⟨-, -, -, -, -, -, -, -, -, -, same_opt, same_rnd, -, -⟩ := onlyTheseInstructionsWrite i s t h
  exact ⟨same_rnd, same_opt⟩

theorem readsOptions_eq_false {i : Instr} (shifts : ∀ x y, i ≠ .shrReg x y ∧ i ≠ .shlReg x y)
    (blocks : ∀ x, i ≠ .storeRegs x ∧ i ≠ .loadRegs x) : readsOptions i = false := by
  cases i with
  | shrReg x y => exact absurd rfl (shifts x y).1
  | shlReg x y => exact absurd rfl (shifts x y).2
  | storeRegs x => exact absurd rfl (blocks x).1
  | loadRegs x => exact absurd rfl (blocks x).2
  | _ => rfl

end

/-! ### The obligations -/

/-- Settles O54: the options and the reports are altered to what they are. -/
theorem randomOperandAffectsOnlyRnd : Obligations.RandomOperandAffectsOnlyRnd := by
  unfold Obligations.RandomOperandAffectsOnlyRnd
  intro i s t r hi h
  have not_drawn : drawsRandom i = true → s.rnd = r := fun draws => by simp [drawsRandom_eq_false hi] at draws
  obtain ⟨added, -, reported, takes⟩ := takesAltered_exec not_drawn (fun _ => rfl) h
  obtain ⟨-, same_opt⟩ := exec_keeps_rnd_opt h
  refine takes.trans ?_
  rw [← reported, ← same_opt]
  rfl

/-- Settles O55: the operand and the reports are altered to what they are. -/
theorem optionsAffectOnlyFourInstructions : Obligations.OptionsAffectOnlyFourInstructions := by
  unfold Obligations.OptionsAffectOnlyFourInstructions
  intro i s t o shifts blocks h
  have not_read : readsOptions i = true → s.opt = o := fun reads => by
    simp [readsOptions_eq_false shifts blocks] at reads
  obtain ⟨added, -, reported, takes⟩ := takesAltered_exec (fun _ => rfl) not_read h
  obtain ⟨same_rnd, -⟩ := exec_keeps_rnd_opt h
  refine takes.trans ?_
  rw [← reported, ← same_rnd]
  rfl

/-- Settles O56: the operand and the options are altered to what they are. -/
theorem reportsAffectNothing : Obligations.ReportsAffectNothing := by
  unfold Obligations.ReportsAffectNothing
  intro i s t reports h
  obtain ⟨added, one, reported, takes⟩ := takesAltered_exec (fun _ => rfl) (fun _ => rfl) h
  obtain ⟨same_rnd, same_opt⟩ := exec_keeps_rnd_opt h
  refine ⟨added, one, reported, takes.trans ?_⟩
  rw [← same_rnd, ← same_opt]
  rfl

end Sys2Proof.Machine
end
